-- ==== Sys2Proof/Word.lean ====
section
/-! DEFINITION. The word types of the part and the widths the manual fixes. -/

namespace Sys2Proof

/-- One payload, header or link-word byte. -/
abbrev Byte := BitVec 8

/-- One register of the window (R171: every access is a 16-bit word access). -/
abbrev Word := BitVec 16

/-- A link sequence number; all its arithmetic is modulo 64 (R17). -/
abbrev Seq := BitVec 6

/-- The number of a parcel record (R20: 0 to 127). -/
abbrev Handle := Fin 128

/-- The number of a cell (R18: 0 to 1023). -/
abbrev CellNo := Fin 1024

end Sys2Proof
end

