-- ==== Sys2Proof/Syntax.lean ====
section
/-! DEFINITION. The commands of the part: one constructor for each row of spec/opcode_table.json, with
the row's operands, and the small types those operands are made of. -/

namespace Sys2Proof

/-- The two lanes (00_scope 6.6). -/
inductive Lane where
  | W
  | E
deriving DecidableEq, Repr

/-- Scope of a HOLD word (R10, R14). -/
inductive HoldScope where
  | all
  | standard
deriving DecidableEq, Repr

/-- The four parts of a GREET (R15, R177): ack flag, hold support flag, station id, and the rate set
with bit 0 for 4, bit 1 for 8 and bit 2 for 16 Mbit/s. Two GREET words are identical when these are
equal; the ignored bits are no part of it. -/
structure Greet where
  ack     : Bool
  hold    : Bool
  station : Byte
  rates   : BitVec 3
deriving DecidableEq, Repr

/-- The commands. A CMD write is given by its command with the argument byte of bits 15:8 (R172),
also where the argument is not examined. -/
inductive Instr where
  /-- RESET# held low and released (R180; log 16). -/
  | pinReset
  /-- CMD 0x01 with its argument (R42). -/
  | laneEnable (arg : Byte)
  /-- CMD 0x02 (R51). -/
  | laneStop (arg : Byte)
  /-- CMD 0x03 (R52). -/
  | laneAbort (arg : Byte)
  /-- CMD 0x10 (R136, R137). -/
  | take (arg : Byte)
  /-- CMD 0x11 (R141). -/
  | release (arg : Byte)
  /-- CMD 0x20 (R147). -/
  | openSend (arg : Byte)
  /-- CMD 0x21 (R152, R153). -/
  | post (arg : Byte)
  /-- CMD 0x22 (R154). -/
  | abandon (arg : Byte)
  /-- CMD 0x30 (R73). -/
  | routeClear (arg : Byte)
  /-- CMD 0x3F (R173). -/
  | softReset (arg : Byte)
  /-- A CMD write whose code names no command (R172). -/
  | unknownCommand (code arg : Byte)
  /-- Read of DDATA (R139, R140). -/
  | ddataRead
  /-- Write of SDATA (R148 to R150). -/
  | sdataWrite (value : Word)
  /-- Read of RPTQ (R157). -/
  | rptqRead
  /-- Read of CVAL (R168). -/
  | cvalRead
  /-- Write of CSEL (R168). -/
  | cselWrite (value : Word)
  /-- Write of EVPEND (R162). -/
  | evpendWrite (value : Word)
  /-- Write of EVEN (R164). -/
  | evenWrite (value : Word)
  /-- Write of RTENT (R72). -/
  | rtentWrite (value : Word)
  /-- Write to the register at a byte offset of the window (R171, R174). -/
  | registerWrite (offset : Byte) (value : Word)
  /-- An SOP taken on a lane (R61). -/
  | sopReceived (l : Lane)
  /-- An SOW taken on a lane (R2). -/
  | sowReceived (l : Lane)
  /-- An IDL taken on a lane (R3). -/
  | idlReceived (l : Lane)
  /-- A data byte taken on a lane (R63). -/
  | dataByteReceived (l : Lane) (b : Byte)
  /-- An EOP taken on a lane (R65). -/
  | eopReceived (l : Lane)
  /-- An ABT taken on a lane (R64). -/
  | abtReceived (l : Lane)
  /-- A valid ACK completed on a lane (R94). -/
  | ackReceived (l : Lane) (seq : Seq)
  /-- A valid REPLAY completed on a lane (R95). -/
  | replayReceived (l : Lane) (seq : Seq)
  /-- A valid HOLD completed on a lane (R111); the time is 0 to 4095 beats (R10). -/
  | holdReceived (l : Lane) (scope : HoldScope) (time : BitVec 12)
  /-- A valid GREET completed on a lane (R44). -/
  | greetReceived (l : Lane) (g : Greet)
  /-- Four beats without a transition on a lane's incoming line (R48). -/
  | lossOfSignal (l : Lane)
  /-- The 8 beats after entry into UP run out (R4). -/
  | startGraceEnd (l : Lane)
  /-- The GREET interval timer expires (R43). -/
  | greetIntervalExpiry (l : Lane)
  /-- The bring-up timer expires (R49). -/
  | bringUpTimerExpiry (l : Lane)
  /-- The stop timer expires (R53). -/
  | stopTimerExpiry (l : Lane)
  /-- The ACK delay timer expires (R87). -/
  | ackDelayExpiry (l : Lane)
  /-- The replay timer expires (R96). -/
  | replayTimerExpiry (l : Lane)
  /-- The renew timer expires (R107). -/
  | renewTimerExpiry (l : Lane)
  /-- The partner hold timer reaches 0 (R112). -/
  | partnerHoldExpiry (l : Lane)
  /-- A start opportunity of a lane's transmitter (R119). -/
  | startOpportunity (l : Lane)
  /-- The unit on a lane's outgoing line ends (R126). -/
  | unitEnd (l : Lane)
  /-- A symbol at another rate than the receiver's (R46). -/
  | symbolAtOtherRate (l : Lane)
deriving DecidableEq, Repr

end Sys2Proof
end

