-- ==== Sys2Proof/Machine/State.lean ====
section
/-! DEFINITION. The state of the part as plain data, unit by unit, and the state after pin reset. -/

namespace Sys2Proof.Machine

/-- Traffic class (00_scope 6.9). -/
inductive TrafficClass where
  | express
  | standard
deriving DecidableEq, Repr

/-- Lane states (R40). -/
inductive LaneState where
  | off
  | seek
  | agree
  | up
  | stopping
deriving DecidableEq, Repr

/-- Lane rates (R5): 4, 8 or 16 Mbit/s. -/
inductive Rate where
  | r4
  | r8
  | r16
deriving DecidableEq, Repr

/-- Last bring-up fault (R40, R50). -/
inductive BringFault where
  | none
  | timeout
  | mismatch
  | duplicate
deriving DecidableEq, Repr

/-- Own hold state (R104). -/
inductive OwnHold where
  | clear
  | holdStd
  | holdAll
deriving DecidableEq, Repr

/-- Which queue of a class was last served (R117). -/
inductive Turn where
  | forward
  | send
deriving DecidableEq, Repr

/-- The source of a record (R20): a lane, or LOCAL for a parcel composed by the host. -/
inductive Arrival where
  | fromLane (l : Lane)
  | ofHost
deriving DecidableEq, Repr

/-- Action of a route table entry (R71). -/
inductive RouteAction where
  | forward
  | adopt
  | discard
deriving DecidableEq, Repr

/-- A valid route table entry (R71). -/
structure RouteEntry where
  station : Byte
  action  : RouteAction
deriving DecidableEq, Repr

/-- Target of a teardown (R54). -/
inductive Target where
  | seek
  | off
deriving DecidableEq, Repr

/-- Result codes shown by CMDST (R172). -/
inductive CmdResult where
  | none
  | taken
  | refusedState
  | refusedBusy
  | refusedArg
  | refusedConfig
  | refusedNoRecord
  | refusedEmpty
  | refusedCompose
  | unknown
deriving DecidableEq, Repr

/-- Fate of a local parcel on one lane (R155). -/
inductive ReportStatus where
  | done
  | lost
  | cancelled
deriving DecidableEq, Repr

/-- A completion report (R155). -/
structure Report where
  handle  : Handle
  lane    : Lane
  status  : ReportStatus
  resends : Nat
deriving DecidableEq, Repr

/-- Event causes (R160). -/
inductive Cause where
  | dlvX
  | dlvS
  | rpt
  | rptOvf
  | lane (l : Lane)
  | bring (l : Lane)
  | held (l : Lane)
  | poolLow
  | countHalf
  | cmdRefused
deriving DecidableEq, Repr

/-- The counters each lane has (R166). -/
inductive LaneCounter where
  | rxAccepted
  | rxBad
  | rxAborted
  | rxDup
  | rxGap
  | rxOverrun
  | rxMalformed
  | rxStripped
  | txParcels
  | txResends
  | laneFailures
  | replayRx
  | replayTx
  | ackStray
  | holdTx
  | holdRx
  | wordBad
  | fwdHopExpired
  | fwdNoLane
  | fwdFull
  | fwdFlushed
  | bringupFaults
deriving DecidableEq, Repr

/-- A counter: of a lane, or one of the four chip-wide ones (R166). -/
inductive Counter where
  | ofLane (l : Lane) (c : LaneCounter)
  | dlvFull (c : TrafficClass)
  | routeDiscard
  | reportLost
deriving DecidableEq, Repr

/-- The registers of the window by name (R175). -/
inductive RegName where
  | cmd
  | cmdst
  | station
  | groups
  | lcfg (l : Lane)
  | lstat (l : Lane)
  | nbr
  | cap (l : Lane)
  | hstd (l : Lane)
  | hall (l : Lane)
  | hrel (l : Lane)
  | htime
  | hrenew
  | ackdly
  | rtmo
  | rlim
  | buplim
  | stoptmo
  | xratio
  | xres
  | lallow
  | palarm
  | free
  | intake (l : Lane)
  | localc
  | rtidx
  | rtent
  | ddepth
  | fdepth
  | dqlen
  | dh0
  | dh1
  | dh2
  | dh3
  | ddata
  | shnd
  | sdest
  | sctl
  | stag
  | slen
  | sdata
  | rptq
  | rptn
  | evpend
  | even
  | csel
  | cval
  | rlist
  | unassigned
deriving DecidableEq, Repr

/-- Symbols on a line (1.1). -/
inductive Symbol where
  | sop
  | data (b : Byte)
  | eop
  | sow
  | abt
  | idl
deriving DecidableEq, Repr

/-- What a line shows at one moment (R1): quiet, or a symbol. -/
inductive LineLevel where
  | quiet
  | symbol (x : Symbol)
deriving DecidableEq, Repr

/-- A symbol with the rate its 10 bit times take (R1, R5). -/
structure LineSymbol where
  symbol : Symbol
  rate   : Rate
deriving DecidableEq, Repr

/-- What is left of a lane timer (R5): the beats left, and how much of the beat under way has gone, in
quarters of a bit time. A beat is 64 bit times, 256 quarters. -/
structure Countdown where
  left : Nat
  gone : Nat
deriving DecidableEq, Repr

/-- A timer just loaded: the first of its beats begins now (R112; log 3). -/
def Countdown.load (n : Nat) : Countdown := { left := n, gone := 0 }

/-- A link word of one of the four kinds with values in range (R10). -/
inductive LinkWord where
  | ack (seq : Seq)
  | replay (seq : Seq)
  | hold (scope : HoldScope) (time : BitVec 12)
  | greet (g : Greet)
deriving DecidableEq, Repr

/-- The fields of a parcel header (R6, R176); the length field is the 10-bit value on the wire. -/
structure Header where
  kind   : Byte
  cls    : TrafficClass
  seq    : Seq
  dest   : Byte
  origin : Byte
  tag    : Word
  hop    : BitVec 4
  length : Nat
deriving DecidableEq, Repr

/-- A parcel record (R20). `arrival` is none only where the field is cleared (log 17). -/
structure Record where
  cls      : TrafficClass
  dest     : Byte
  origin   : Byte
  hop      : BitVec 4
  tag      : Word
  length   : Nat
  arrival  : Option Arrival
  chain    : List CellNo
  refs     : Nat
  compose  : Bool
  assembly : Option Lane
deriving DecidableEq, Repr

/-- A FREE record: all fields cleared (R26, R36; log 17). -/
def Record.cleared : Record :=
  { cls := .standard, dest := 0, origin := 0, hop := 0, tag := 0, length := 0, arrival := none,
    chain := [], refs := 0, compose := false, assembly := none }

/-- The framing state of a receiver (R2); IN WORD holds the bytes that have followed the SOW. -/
inductive Framing where
  | between
  | inParcel
  | inWord (bytes : List Byte)
deriving DecidableEq, Repr

/-- The assembly state of a receiver (R60), and `crcBeforeCheck`, the model's own: the running check
over all bytes received but the last two (log 24). -/
structure Assembly where
  isOpen         : Bool
  record         : Option Handle
  cells          : List CellNo
  overrun        : Bool
  header         : List Byte
  check          : List Byte
  byteCount      : Nat
  stored         : Nat
  limit          : Nat
  crc            : Word
  crcBeforeCheck : Word
deriving DecidableEq, Repr

/-- The starting values of R60. -/
def Assembly.start : Assembly :=
  { isOpen := false, record := none, cells := [], overrun := false, header := [], check := [],
    byteCount := 0, stored := 0, limit := 512, crc := 0xFFFF, crcBeforeCheck := 0xFFFF }

/-- An entry of a replay list (R90). -/
structure ReplayEntry where
  seq      : Seq
  handle   : Handle
  cls      : TrafficClass
  attempts : Nat
  onWire   : Bool
  acked    : Bool
deriving DecidableEq, Repr

/-- The replay timer (R89): stopped, or running or paused with the beats remaining. -/
inductive ReplayTimer where
  | stopped
  | running (t : Countdown)
  | paused (t : Countdown)
deriving DecidableEq, Repr

/-- The unit in progress (R117): a link word, or a data parcel with its replay-list entry, which its
seq names. -/
inductive TxUnit where
  | none
  | word (w : LinkWord)
  | parcel (seq : Seq)
deriving DecidableEq, Repr

/-- A pending HOLD, its scope and time fixed at the request (R106). -/
structure HoldRequest where
  scope : HoldScope
  time  : BitVec 12
deriving DecidableEq, Repr

/-- All state of one lane: bring-up control (R40), receiver (R2, R4, R60, R80), transmitter (R89,
R110, R117), hold unit (R104), the pool unit's intake of the lane (R27), and the outgoing line (R1):
the symbols still to come of what is on it, and how much of the present symbol has gone, in quarters of
a bit time. A timer that is none is stopped; `quiet` is what is left of the 4 beats of the quiet
interval (R4). -/
structure LaneUnit where
  state           : LaneState
  neighbour       : Option Greet
  identical       : Nat
  sent            : Nat
  agreed          : Option Rate
  holdUse         : Bool
  greetTimer      : Option Countdown
  bringTimer      : Option Countdown
  stopTimer       : Option Countdown
  grace           : Option Countdown
  lastFault       : BringFault
  framing         : Framing
  quiet           : Countdown
  signalLost      : Bool
  asm             : Assembly
  expected        : Seq
  accSinceAck     : Nat
  ackTimer        : Option Countdown
  replayRequested : Bool
  replayOwed      : Bool
  nextSeq         : Seq
  replay          : List ReplayEntry
  pointer         : Option Seq
  replayTimer     : ReplayTimer
  partnerScope    : HoldScope
  partnerTimer    : Countdown
  unit            : TxUnit
  pendGreet       : Bool
  pendHold        : Option HoldRequest
  pendReplay      : Option Seq
  pendAck         : Option Seq
  fwdX            : List Handle
  fwdS            : List Handle
  sendX           : List Handle
  sendS           : List Handle
  turnX           : Turn
  turnS           : Turn
  streak          : Nat
  ownHold         : OwnHold
  renewTimer      : Option Countdown
  intake          : Nat
  txq             : List LineSymbol
  symGone         : Nat
deriving DecidableEq, Repr

/-- A lane after pin reset (R4, R36, R40, R60, R80, R89, R104, R110, R117; the model's own line
fields: log 26). -/
def LaneUnit.reset : LaneUnit :=
  { state := .off, neighbour := none, identical := 0, sent := 0, agreed := none, holdUse := false,
    greetTimer := none, bringTimer := none, stopTimer := none, grace := none, lastFault := .none,
    framing := .between, quiet := .load 4, signalLost := false, asm := Assembly.start,
    expected := 0, accSinceAck := 0, ackTimer := none, replayRequested := false,
    replayOwed := false, nextSeq := 0, replay := [], pointer := none, replayTimer := .stopped,
    partnerScope := .all, partnerTimer := .load 0, unit := .none, pendGreet := false, pendHold := none,
    pendReplay := none, pendAck := none, fwdX := [], fwdS := [], sendX := [], sendS := [],
    turnX := .send, turnS := .send, streak := 0, ownHold := .clear, renewTimer := none,
    intake := 0, txq := [], symGone := 0 }

/-- The settings of one lane that LANE ENABLE checks (R42, R175). -/
structure LaneSettings where
  lcfg : Word
  cap  : Word
  hstd : Word
  hall : Word
  hrel : Word
deriving DecidableEq, Repr

/-- Pin-reset values of R175. -/
def LaneSettings.reset : LaneSettings :=
  { lcfg := 0x000F, cap := 384, hstd := 256, hall := 320, hrel := 128 }

/-- The registers that SOFT RESET keeps (R175), but for the route table and EVEN. -/
structure Settings where
  station : Word
  groups  : Word
  laneW   : LaneSettings
  laneE   : LaneSettings
  htime   : Word
  hrenew  : Word
  ackdly  : Word
  rtmo    : Word
  rlim    : Word
  buplim  : Word
  stoptmo : Word
  xratio  : Word
  xres    : Word
  lallow  : Word
  palarm  : Word
  ddepth  : Word
  fdepth  : Word
deriving DecidableEq, Repr

/-- Pin-reset values of R175. -/
def Settings.reset : Settings :=
  { station := 0, groups := 0, laneW := LaneSettings.reset, laneE := LaneSettings.reset,
    htime := 1024, hrenew := 128, ackdly := 32, rtmo := 2048, rlim := 4, buplim := 64,
    stoptmo := 4095, xratio := 4, xres := 32, lallow := 256, palarm := 64, ddepth := 0x4040,
    fdepth := 48 }

/-- The payload bytes of the pool: byte i of cell c at address 64 c + i (R18, R20), as a list with
rising addresses and no entry equal to what an unlisted address reads as (log 5). -/
abbrev Memory := List Host.Cell

/-- The whole part. `pending` holds the commands not yet taken, the oldest first; `draws` counts the
free values used (log 2); both are the model's own. `resetLow`: RESET# is held low (R171, R180). -/
structure State where
  pending       : List Instr
  draws         : Nat
  resetLow      : Bool
  busOut        : Word
  cmdst         : CmdResult
  cfg           : Settings
  routes        : Vector (Option RouteEntry) 32
  rtidx         : Fin 32
  freeList      : List CellNo
  records       : Vector Record 128
  mem           : Memory
  localCount    : Nat
  laneW         : LaneUnit
  laneE         : LaneUnit
  dqX           : List Handle
  dqS           : List Handle
  slot          : Option Handle
  readPos       : Nat
  readPast      : Bool
  composeOpen   : Bool
  composeHandle : Handle
  composeLen    : Nat
  noCells       : Bool
  tooLong       : Bool
  reports       : List Report
  sdest         : Byte
  sctl          : Word
  stag          : Word
  evPend        : BitVec 13
  evEnable      : BitVec 13
  counters      : Vector Word 48
  csel          : Fin 48
deriving DecidableEq, Repr

/-- The part after pin reset (R36, R59, R79, R101, R115, R130, R144, R159, R170, R175). -/
def State.reset : State :=
  { pending := [], draws := 0, resetLow := false, busOut := 0, cmdst := .none, cfg := Settings.reset,
    routes := Vector.replicate 32 none, rtidx := 0, freeList := List.finRange 1024,
    records := Vector.replicate 128 Record.cleared, mem := [], localCount := 0,
    laneW := LaneUnit.reset, laneE := LaneUnit.reset, dqX := [], dqS := [], slot := none,
    readPos := 0, readPast := false, composeOpen := false, composeHandle := 0, composeLen := 0,
    noCells := false, tooLong := false, reports := [], sdest := 0, sctl := 0x000F, stag := 0,
    evPend := 0, evEnable := 0, counters := Vector.replicate 48 0, csel := 0 }

/-- Reasons the part stops with a fault: none. The manual describes no condition that stops the part;
what it turns away it answers with a result code (R172), which is a next state. An empty type is
safe: no meaning can raise one. -/
inductive Fault where
deriving DecidableEq, Repr

/-- Reasons a command is refused by the model. -/
inductive Refusal where
  /-- Raised by exec for a command that has no meaning yet, with its mnemonic; no arm raises it now.
  Safe: it stops where the part goes on. -/
  | notModelled (mnemonic : String)
deriving DecidableEq, Repr

end Sys2Proof.Machine
end

