-- ==== Sys2Proof/Machine/Flags.lean ====
section
/-! DEFINITION. The flags the part raises and the tallies it keeps: event causes (R160 to R165),
counters (R166, R167) and command results (R161, R172). -/

namespace Sys2Proof.Machine

/-- Bit of a cause in EVPEND and EVEN (R160). -/
def Cause.bit : Cause → Nat
  | .dlvX => 0
  | .dlvS => 1
  | .rpt => 2
  | .rptOvf => 3
  | .lane .W => 4
  | .lane .E => 5
  | .bring .W => 6
  | .bring .E => 7
  | .held .W => 8
  | .held .E => 9
  | .poolLow => 10
  | .countHalf => 11
  | .cmdRefused => 12

/-- The set holding one cause. -/
def Cause.mask (c : Cause) : BitVec 13 := BitVec.ofNat 13 (2 ^ c.bit)

/-- A block raises a cause: its pending flag is set, whatever the enable set holds (R161). -/
def raise (c : Cause) (s : State) : State := { s with evPend := s.evPend ||| c.mask }

/-- INT# is low when a cause is both pending and enabled (R165). -/
def intLow (s : State) : Bool := (s.evPend &&& s.evEnable) != 0

/-- Offset of a counter among those of its lane (R166). -/
def LaneCounter.offset : LaneCounter → Fin 22
  | .rxAccepted => 0
  | .rxBad => 1
  | .rxAborted => 2
  | .rxDup => 3
  | .rxGap => 4
  | .rxOverrun => 5
  | .rxMalformed => 6
  | .rxStripped => 7
  | .txParcels => 8
  | .txResends => 9
  | .laneFailures => 10
  | .replayRx => 11
  | .replayTx => 12
  | .ackStray => 13
  | .holdTx => 14
  | .holdRx => 15
  | .wordBad => 16
  | .fwdHopExpired => 17
  | .fwdNoLane => 18
  | .fwdFull => 19
  | .fwdFlushed => 20
  | .bringupFaults => 21

/-- Index of a counter, 0 to 47 (R166): counter k of Lane W is k, of Lane E 22 + k. -/
def Counter.index : Counter → Fin 48
  | .ofLane .W c => ⟨c.offset, by omega⟩
  | .ofLane .E c => ⟨22 + c.offset, by omega⟩
  | .dlvFull .express => 44
  | .dlvFull .standard => 45
  | .routeDiscard => 46
  | .reportLost => 47

/-- The value of a counter. -/
def State.counter (s : State) (c : Counter) : Word := s.counters[c.index]

/-- One increment of a counter (R167): it saturates at 65535, and COUNT_HALF is raised by the
increment that reaches 32768 and by no other. -/
def bump (c : Counter) (s : State) : State :=
  let v := s.counter c
  if v = 0xFFFF then s
  else
    let s' := { s with counters := s.counters.set c.index (v + 1) }
    if v = 32767 then raise .countHalf s' else s'

/-- Code of a result in CMDST (R172). -/
def CmdResult.code : CmdResult → Word
  | .none => 0
  | .taken => 1
  | .refusedState => 2
  | .refusedBusy => 3
  | .refusedArg => 4
  | .refusedConfig => 5
  | .refusedNoRecord => 6
  | .refusedEmpty => 7
  | .refusedCompose => 8
  | .unknown => 9

/-- CMDST shows TAKEN; nothing is raised (R161). -/
def taken (s : State) : State := { s with cmdst := .taken }

/-- A refusal: its code goes to CMDST and CMD_REFUSED is raised in the same event (R161, R172). -/
def refuse (r : CmdResult) (s : State) : State := raise .cmdRefused { s with cmdst := r }

end Sys2Proof.Machine
end

