-- ==== Sys2Proof/Machine/Operands.lean ====
section
/-! DEFINITION. The formats: what the fields of a header, a link word and a register write are, the
two check words, and the places of the fields (R6 to R12, R172 to R179). -/

namespace Sys2Proof.Machine

/-- The other lane (00_scope 6.6). -/
def otherLane : Lane → Lane
  | .W => .E
  | .E => .W

/-- The lane a command argument names: 0 W, 1 E, and no other (R173). -/
def laneOfArg (arg : Byte) : Option Lane :=
  if arg = 0 then some .W else if arg = 1 then some .E else none

/-! ### Check words -/

/-- One bit of a CRC register of `w` bits, most significant bit first (R8, R11). -/
def crcShift {w : Nat} (poly r : BitVec w) : BitVec w :=
  if r.msb then (r <<< 1) ^^^ poly else r <<< 1

/-- One byte into the CRC-16 of a parcel: polynomial x^16+x^12+x^5+1 (R8). -/
def crc16Byte (r : Word) (b : Byte) : Word :=
  (List.range 8).foldl (fun r _ => crcShift 0x1021 r) (r ^^^ (b.setWidth 16 <<< 8))

/-- The parcel check word over bytes in their order on the line, from 0xFFFF (R8). -/
def crc16 (bs : List Byte) : Word := bs.foldl crc16Byte 0xFFFF

/-- One byte into the CRC-8 of a link word: polynomial x^8+x^2+x+1 (R11). -/
def crc8Byte (r : Byte) (b : Byte) : Byte :=
  (List.range 8).foldl (fun r _ => crcShift 0x07 r) (r ^^^ b)

/-- The link-word check, from 0 (R11). -/
def crc8 (bs : List Byte) : Byte := bs.foldl crc8Byte 0

/-! ### Parcel header (R176) -/

/-- High byte of a word, which goes first on the wire (00_scope 6.4). -/
def hiByte (w : Word) : Byte := w.extractLsb' 8 8

/-- Low byte of a word. -/
def loByte (w : Word) : Byte := w.extractLsb' 0 8

/-- A word from its high and low bytes. -/
def wordOf (hi lo : Byte) : Word := hi ++ lo

/-- Class from its wire and register bit: 1 express, 0 standard (R176, R178). -/
def classOfBit (b : Bool) : TrafficClass := if b then .express else .standard

/-- The wire and register bit of a class. -/
def TrafficClass.bit : TrafficClass → Bool
  | .express => true
  | .standard => false

/-- The fields of the 8 header bytes, in the places of R176; the bits marked "sent 0" are ignored. -/
def Header.decode (bs : List Byte) : Header :=
  let b := fun i => bs.getD i 0
  { kind := b 0
    cls := classOfBit ((b 1).getLsbD 6)
    seq := (b 1).extractLsb' 0 6
    dest := b 2
    origin := b 3
    tag := wordOf (b 4) (b 5)
    hop := (b 6).extractLsb' 4 4
    length := ((b 6).extractLsb' 0 2 ++ b 7 : BitVec 10).toNat }

/-- The 8 header bytes of a parcel, the bits marked "sent 0" as 0 (R176). -/
def Header.encode (h : Header) : List Byte :=
  let len := BitVec.ofNat 10 h.length
  [h.kind,
   (0#1 ++ BitVec.ofBool h.cls.bit ++ h.seq : BitVec 8),
   h.dest, h.origin, hiByte h.tag, loByte h.tag,
   (h.hop ++ 0#2 ++ len.extractLsb' 8 2 : BitVec 8),
   len.extractLsb' 0 8]

/-- An accepted parcel's header is malformed, given the payload bytes received (R67). -/
def Header.malformed (h : Header) (received : Nat) : Bool :=
  h.kind != 1 || h.dest == 0 || decide (h.origin.toNat < 1 ∨ 239 < h.origin.toNat)
    || decide (512 < h.length) || h.length != received

/-! ### Link words (R177) -/

/-- The four bytes of a link word before its check (R10, R177). -/
def LinkWord.body : LinkWord → List Byte
  | .ack q => [0x11, 0, 0, q.setWidth 8]
  | .replay q => [0x12, 0, 0, q.setWidth 8]
  | .hold sc t =>
      [0x13, (match sc with | .all => 0x01 | .standard => 0x02),
       hiByte (t.setWidth 16), loByte (t.setWidth 16)]
  | .greet g =>
      [0x14, (0#6 ++ BitVec.ofBool g.hold ++ BitVec.ofBool g.ack : BitVec 8),
       g.station, g.rates.setWidth 8]

/-- The five bytes after the SOW (R1, R10). -/
def LinkWord.bytes (w : LinkWord) : List Byte := w.body ++ [crc8 w.body]

/-- The judgement of a completed link word (R12): the word if it is valid, none if it is bad. A GREET
with a station id outside 1 to 239 is bad; the argument of an ACK or REPLAY is not examined. -/
def judgeWord : List Byte → Option LinkWord
  | [k, a, hi, lo, c] =>
    let value := wordOf hi lo
    if c ≠ crc8 [k, a, hi, lo] then none
    else if k = 0x11 then
      if value.toNat ≤ 63 then some (.ack (value.setWidth 6)) else none
    else if k = 0x12 then
      if value.toNat ≤ 63 then some (.replay (value.setWidth 6)) else none
    else if k = 0x13 then
      if value.toNat ≤ 4095 then
        if a = 0x01 then some (.hold .all (value.setWidth 12))
        else if a = 0x02 then some (.hold .standard (value.setWidth 12))
        else none
      else none
    else if k = 0x14 then
      if 1 ≤ hi.toNat ∧ hi.toNat ≤ 239 then
        some (.greet { ack := a.getLsbD 0, hold := a.getLsbD 1, station := hi,
                       rates := lo.extractLsb' 0 3 })
      else none
    else none
  | _ => none

/-! ### Rates (R5, R177) -/

/-- The bit of a rate in a rate set or mask. -/
def Rate.mask : Rate → BitVec 3
  | .r4 => 0b001
  | .r8 => 0b010
  | .r16 => 0b100

/-- The highest rate in a set, in the order 16, 8, 4 (R46). -/
def highestRate (m : BitVec 3) : Option Rate :=
  if m &&& Rate.r16.mask ≠ 0 then some .r16
  else if m &&& Rate.r8.mask ≠ 0 then some .r8
  else if m &&& Rate.r4.mask ≠ 0 then some .r4
  else none

/-- The rate mask of LCFG (R175, R177). -/
def LaneSettings.rateMask (c : LaneSettings) : BitVec 3 := c.lcfg.extractLsb' 0 3

/-- The hold support setting of LCFG, its bit 3 (R177). -/
def LaneSettings.holdSupport (c : LaneSettings) : Bool := c.lcfg.getLsbD 3

/-! ### Register fields (R175, R178) -/

/-- The register at a byte offset (R175); an offset that is not one of the 64 even ones, or that is
0x6E to 0x7E, is no register. -/
def RegName.ofOffset (offset : Byte) : RegName :=
  match offset.toNat with
  | 0x00 => .cmd
  | 0x02 => .cmdst
  | 0x04 => .station
  | 0x06 => .groups
  | 0x08 => .lcfg .W
  | 0x0A => .lcfg .E
  | 0x0C => .lstat .W
  | 0x0E => .lstat .E
  | 0x10 => .nbr
  | 0x12 => .cap .W
  | 0x14 => .cap .E
  | 0x16 => .hstd .W
  | 0x18 => .hstd .E
  | 0x1A => .hall .W
  | 0x1C => .hall .E
  | 0x1E => .hrel .W
  | 0x20 => .hrel .E
  | 0x22 => .htime
  | 0x24 => .hrenew
  | 0x26 => .ackdly
  | 0x28 => .rtmo
  | 0x2A => .rlim
  | 0x2C => .buplim
  | 0x2E => .stoptmo
  | 0x30 => .xratio
  | 0x32 => .xres
  | 0x34 => .lallow
  | 0x36 => .palarm
  | 0x38 => .free
  | 0x3A => .intake .W
  | 0x3C => .intake .E
  | 0x3E => .localc
  | 0x40 => .rtidx
  | 0x42 => .rtent
  | 0x44 => .ddepth
  | 0x46 => .fdepth
  | 0x48 => .dqlen
  | 0x4A => .dh0
  | 0x4C => .dh1
  | 0x4E => .dh2
  | 0x50 => .dh3
  | 0x52 => .ddata
  | 0x54 => .shnd
  | 0x56 => .sdest
  | 0x58 => .sctl
  | 0x5A => .stag
  | 0x5C => .slen
  | 0x5E => .sdata
  | 0x60 => .rptq
  | 0x62 => .rptn
  | 0x64 => .evpend
  | 0x66 => .even
  | 0x68 => .csel
  | 0x6A => .cval
  | 0x6C => .rlist
  | _ => .unassigned

/-- A number lies in a range, both ends included (00_scope 6.3). -/
def inRange (lo hi n : Nat) : Bool := decide (lo ≤ n) && decide (n ≤ hi)

/-- Check 1 of R174: the value lies within the register's range and every bit outside its fields is
0. For RTENT this is all of R72 that does not look at the table. A register that is not marked
checked admits every value. -/
def RegName.inRange (r : RegName) (v : Word) : Bool :=
  match r with
  | .station => Machine.inRange 0 255 v.toNat
  | .groups => !v.getLsbD 15
  | .lcfg _ => Machine.inRange 0 15 v.toNat
  | .cap _ => Machine.inRange 16 1024 v.toNat
  | .hstd _ | .hall _ | .hrel _ | .palarm => Machine.inRange 0 1024 v.toNat
  | .htime | .stoptmo => Machine.inRange 1 4095 v.toNat
  | .hrenew => Machine.inRange 1 4094 v.toNat
  | .ackdly | .buplim => Machine.inRange 1 255 v.toNat
  | .rtmo => Machine.inRange 16 4095 v.toNat
  | .rlim => Machine.inRange 1 15 v.toNat
  | .xratio => Machine.inRange 0 15 v.toNat
  | .xres => Machine.inRange 0 255 v.toNat
  | .lallow => Machine.inRange 8 1024 v.toNat
  | .rtidx => Machine.inRange 0 31 v.toNat
  | .rtent =>
      Machine.inRange 0 1023 v.toNat &&
        (loByte v == 0 || ((loByte v).toNat ≤ 239 && v.extractLsb' 8 2 != 3#2))
  | .ddepth =>
      Machine.inRange 1 128 (loByte v).toNat && Machine.inRange 1 128 (hiByte v).toNat
  | .fdepth => Machine.inRange 1 128 v.toNat
  | .sctl => Machine.inRange 0 127 v.toNat
  | .even => Machine.inRange 0 8191 v.toNat
  | .csel => Machine.inRange 0 47 v.toNat
  | .cmd | .cmdst | .lstat _ | .nbr | .free | .intake _ | .localc | .dqlen | .dh0 | .dh1 | .dh2
  | .dh3 | .ddata | .shnd | .sdest | .stag | .slen | .sdata | .rptq | .rptn | .evpend | .cval
  | .rlist | .unassigned => true

/-- Hop of SCTL (R178). -/
def sctlHop (v : Word) : BitVec 4 := v.extractLsb' 0 4

/-- Class of SCTL (R178). -/
def sctlClass (v : Word) : TrafficClass := classOfBit (v.getLsbD 4)

/-- Whether SCTL selects a lane (R178): bit 5 Lane W, bit 6 Lane E. -/
def sctlLane (v : Word) : Lane → Bool
  | .W => v.getLsbD 5
  | .E => v.getLsbD 6

/-- Action of an RTENT value (R178); 3 is undefined. -/
def routeActionOf (v : Word) : Option RouteAction :=
  match (v.extractLsb' 8 2).toNat with
  | 0 => some .forward
  | 1 => some .adopt
  | 2 => some .discard
  | _ => none

/-- Action code of RTENT (R178). -/
def RouteAction.code : RouteAction → Word
  | .forward => 0
  | .adopt => 1
  | .discard => 2

/-- The word RTENT shows for an entry: 0 for an empty one (R72, R178). -/
def routeWord : Option RouteEntry → Word
  | none => 0
  | some e => (e.action.code <<< 8) ||| e.station.setWidth 16

/-- Status code of a report (R179). -/
def ReportStatus.code : ReportStatus → Word
  | .done => 1
  | .lost => 2
  | .cancelled => 3

/-- Lane bit of a format: 0 W, 1 E (R178, R179). -/
def laneBit : Lane → Word
  | .W => 0
  | .E => 1

/-- The report word (R179). -/
def Report.word (r : Report) : Word :=
  0x8000 ||| (r.status.code <<< 13) ||| (laneBit r.lane <<< 12)
    ||| ((BitVec.ofNat 4 r.resends).setWidth 16 <<< 8) ||| BitVec.ofNat 16 r.handle.val

/-- Code of a lane state in LSTAT (R178). -/
def LaneState.code : LaneState → Word
  | .off => 0
  | .seek => 1
  | .agree => 2
  | .up => 3
  | .stopping => 4

/-- Code of the agreed rate in LSTAT (R178). -/
def rateCode : Option Rate → Word
  | none => 0
  | some .r4 => 1
  | some .r8 => 2
  | some .r16 => 3

/-- Code of the last fault in LSTAT (R178). -/
def BringFault.code : BringFault → Word
  | .none => 0
  | .timeout => 1
  | .mismatch => 2
  | .duplicate => 3

/-- A flag as a word. -/
def flagWord (b : Bool) : Word := (BitVec.ofBool b).setWidth 16

end Sys2Proof.Machine
end

