-- ==== Sys2Proof/Machine/Ops.lean ====
section
/-! DEFINITION. The shared operations: access to lanes, records and payload bytes, requests to a
lane's transmitter, the pool unit (chapter 2), reports (R155, R156), acknowledgement (R93) and the
teardown of a lane (R54). -/

namespace Sys2Proof.Machine

/-! ### Access -/

/-- The unit of a lane. -/
def State.lane (s : State) : Lane → LaneUnit
  | .W => s.laneW
  | .E => s.laneE

/-- Replace the unit of a lane. -/
def State.setLane (s : State) (l : Lane) (u : LaneUnit) : State :=
  match l with
  | .W => { s with laneW := u }
  | .E => { s with laneE := u }

/-- Change the unit of a lane. -/
def State.modLane (s : State) (l : Lane) (f : LaneUnit → LaneUnit) : State :=
  s.setLane l (f (s.lane l))

/-- The settings of a lane. -/
def Settings.lane (c : Settings) : Lane → LaneSettings
  | .W => c.laneW
  | .E => c.laneE

/-- Replace the settings of a lane. -/
def Settings.setLane (c : Settings) (l : Lane) (x : LaneSettings) : Settings :=
  match l with
  | .W => { c with laneW := x }
  | .E => { c with laneE := x }

/-- The record a handle names (R20). -/
def State.record (s : State) (h : Handle) : Record := s.records[h]

/-- Replace a record. -/
def State.setRecord (s : State) (h : Handle) (r : Record) : State :=
  { s with records := s.records.set h r }

/-- The free count (R18). -/
def State.freeCount (s : State) : Nat := s.freeList.length

/-- A lane receives and sends parcels in UP and STOPPING (R16). -/
def LaneState.carries : LaneState → Bool
  | .up | .stopping => true
  | .off | .seek | .agree => false

/-- A lane greets in SEEK and AGREE (R43). -/
def LaneState.greets : LaneState → Bool
  | .seek | .agree => true
  | .off | .up | .stopping => false

/-- The rate of a lane: agreed in UP and STOPPING, base otherwise (R5). -/
def LaneUnit.rate (u : LaneUnit) : Rate :=
  if u.state.carries then u.agreed.getD .r4 else .r4

/-- The partner hold is active while its timer is above 0 (R110). -/
def LaneUnit.held (u : LaneUnit) : Bool := decide (0 < u.partnerTimer.left)

/-! ### Accesses while RESET# is low (R171) -/

/-- A write to the window, which is ignored while RESET# is low. -/
def State.onWrite (s : State) (f : State → State) : State := if s.resetLow then s else f s

/-- A read of the window with a side effect; while RESET# is low it returns 0 and has none. -/
def State.onRead (s : State) (f : State → State) : State :=
  if s.resetLow then { s with busOut := 0 } else f s

/-! ### Payload memory (R18, R20; log 5) -/

/-- What an address with no entry reads as (log 5). -/
def Memory.unlisted : Byte := 0

/-- Read one byte. -/
def Memory.read : Memory → Nat → Byte
  | [], _ => Memory.unlisted
  | (k, v) :: m, a => if k = a then v else Memory.read m a

/-- Put a byte before entries with higher addresses; the unlisted value needs no entry. -/
def Memory.cons (a : Nat) (b : Byte) (m : Memory) : Memory :=
  if b = Memory.unlisted then m else (a, b) :: m

/-- Write one byte, keeping the canonical form. -/
def Memory.write : Memory → Nat → Byte → Memory
  | [], a, b => Memory.cons a b []
  | (k, v) :: m, a, b =>
    if a < k then Memory.cons a b ((k, v) :: m)
    else if a = k then Memory.cons a b m
    else (k, v) :: Memory.write m a b

/-- Canonical form above a bound: rising addresses, none listed with the unlisted value. -/
def Memory.wfFrom : Nat → Memory → Bool
  | _, [] => true
  | lo, (k, v) :: m => decide (lo ≤ k) && v != Memory.unlisted && Memory.wfFrom (k + 1) m

/-- The canonical form of a payload memory. -/
def Memory.wf (m : Memory) : Bool := Memory.wfFrom 0 m

/-- Address of byte `i` of a cell (R18: 64 bytes a cell). -/
def cellAddr (c : CellNo) (i : Nat) : Nat := 64 * c.val + i % 64

/-- Payload byte `i` of a record: in chain position floor(i / 64), at offset i modulo 64 (R20). Past
the end of the chain there is no such byte; it reads as an unwritten one (log 19). -/
def State.payloadByte (s : State) (r : Record) (i : Nat) : Byte :=
  match r.chain[i / 64]? with
  | some c => s.mem.read (cellAddr c i)
  | none => Memory.unlisted

/-- The payload of a record, exactly length bytes in order (R7, R20). -/
def State.payload (s : State) (r : Record) : List Byte :=
  (List.range r.length).map (s.payloadByte r)

/-- Write byte `i` of a cell. -/
def State.writeCell (s : State) (c : CellNo) (i : Nat) (b : Byte) : State :=
  { s with mem := s.mem.write (cellAddr c i) b }

/-! ### Updates of a lane's unit, and requests to its transmitter -/

/-- Replace the assembly of a lane. -/
def LaneUnit.setAsm (a : Assembly) (u : LaneUnit) : LaneUnit := { u with asm := a }

/-- Request an ACK: it replaces a pending one (R88). -/
def LaneUnit.requestAck (q : Seq) (u : LaneUnit) : LaneUnit := { u with pendAck := some q }

/-- Request a REPLAY: it replaces a pending one (R88). -/
def LaneUnit.requestReplay (q : Seq) (u : LaneUnit) : LaneUnit := { u with pendReplay := some q }

/-- Request a HOLD: it replaces a pending one (R106). -/
def LaneUnit.requestHold (sc : HoldScope) (t : BitVec 12) (u : LaneUnit) : LaneUnit :=
  { u with pendHold := some { scope := sc, time := t } }

/-- Request a GREET and start the interval timer at 16 beats (R43). -/
def LaneUnit.requestGreet (u : LaneUnit) : LaneUnit :=
  { u with pendGreet := true, greetTimer := some (.load 16) }

/-- Request ACK(expected − 1) and clear the acknowledgement state (R83, R87). -/
def LaneUnit.acknowledgeNow (u : LaneUnit) : LaneUnit :=
  { u.requestAck (u.expected - 1) with accSinceAck := 0, ackTimer := none }

/-! ### Intake changes (R27, R86, R105) -/

/-- The hold time sent in HOLD words: HTIME (R102). -/
def Settings.holdTime (c : Settings) : BitVec 12 := c.htime.setWidth 12

/-- The transitions of the own hold at an intake value (R105). -/
def LaneUnit.evaluateHold (c : Settings) (m : LaneSettings) (u : LaneUnit) : LaneUnit :=
  match u.ownHold with
  | .clear =>
    if m.hall.toNat ≤ u.intake then
      { u.requestHold .all c.holdTime with ownHold := .holdAll }
    else if m.hstd.toNat ≤ u.intake then
      { u.requestHold .standard c.holdTime with ownHold := .holdStd }
    else u
  | .holdStd =>
    if m.hall.toNat ≤ u.intake then
      { u.requestHold .all c.holdTime with ownHold := .holdAll }
    else if u.intake ≤ m.hrel.toNat then
      { u.requestHold .all 0 with ownHold := .clear, renewTimer := none }
    else u
  | .holdAll =>
    if u.intake ≤ m.hrel.toNat then
      { u.requestHold .all 0 with ownHold := .clear, renewTimer := none }
    else u

/-- The hold unit takes intake changes only in UP or STOPPING with hold use yes (R103, R105). -/
def LaneUnit.holdUnit (c : Settings) (m : LaneSettings) (u : LaneUnit) : LaneUnit :=
  if u.state.carries && u.holdUse then u.evaluateHold c m else u

/-- The owed replay: the first intake change that leaves intake at or below HREL releases it (R86). -/
def LaneUnit.releaseOwed (m : LaneSettings) (u : LaneUnit) : LaneUnit :=
  if u.replayOwed && decide (u.intake ≤ m.hrel.toNat) then
    { u.requestReplay u.expected with replayOwed := false, replayRequested := true }
  else u

/-- A change of intake[L] is presented to hold unit L and receiver L, which act in the event of the
change (R27, R116). -/
def LaneUnit.intakeTo (c : Settings) (m : LaneSettings) (n : Nat) (u : LaneUnit) : LaneUnit :=
  (LaneUnit.holdUnit c m { u with intake := n }).releaseOwed m

/-- Set intake[L] to a new value; an unchanged value is no change (R27, log 13). -/
def State.setIntake (s : State) (l : Lane) (n : Nat) : State :=
  if n = (s.lane l).intake then s else s.modLane l (LaneUnit.intakeTo s.cfg (s.cfg.lane l) n)

/-! ### The pool unit (chapter 2) -/

/-- Return cells of a source to the tail of the free list, and lower the count they stood in (R18,
R26 to R28). -/
def State.returnCells (s : State) (a : Option Arrival) (cs : List CellNo) : State :=
  let s := { s with freeList := s.freeList ++ cs }
  match a with
  | some (.fromLane l) => s.setIntake l ((s.lane l).intake - cs.length)
  | some .ofHost => { s with localCount := s.localCount - cs.length }
  | none => s

/-- A record is FREE: no mark and count 0 (R21). -/
def Record.isFree (r : Record) : Bool := r.refs == 0 && !r.compose && r.assembly.isNone

/-- The lowest-numbered FREE record (R22). -/
def State.lowestFree (s : State) : Option Handle :=
  (List.finRange 128).find? fun h => (s.record h).isFree

/-- Free a record: its fields are cleared and its chain goes to the free list (R26). -/
def State.freeRecord (s : State) (h : Handle) : State :=
  let r := s.record h
  (s.setRecord h Record.cleared).returnCells r.arrival r.chain

/-- A reference drop; the one that brings the count to 0 frees the record (R26). -/
def State.dropRef (s : State) (h : Handle) : State :=
  let r := s.record h
  if r.refs ≤ 1 then s.freeRecord h else s.setRecord h { r with refs := r.refs - 1 }

/-- The checks of R29 that do not depend on the requester: orders 1 and 2. -/
def State.poolAdmits (s : State) (c : TrafficClass) : Bool :=
  decide (0 < s.freeCount) && (decide (s.cfg.xres.toNat < s.freeCount) || c == .express)

/-- The check of R29 on the requester's own count: orders 3 and 4. -/
def State.sourceAdmits (s : State) : Arrival → Bool
  | .fromLane l => decide ((s.lane l).intake + 1 ≤ (s.cfg.lane l).cap.toNat)
  | .ofHost => decide (s.localCount + 1 ≤ s.cfg.lallow.toNat)

/-- One cell request (R29): none is a refusal; a grant takes the head of the free list, raises the
requester's count, and raises POOL_LOW when the free count crosses PALARM (R18, R19, R27, R28, R34). -/
def State.requestCell (s : State) (a : Arrival) (c : TrafficClass) : Option (CellNo × State) :=
  if s.poolAdmits c && s.sourceAdmits a then
    match s.freeList with
    | [] => none
    | n :: rest =>
      let s1 := { s with freeList := rest }
      let s2 :=
        if rest.length ≤ s.cfg.palarm.toNat ∧ s.cfg.palarm.toNat < s.freeCount then
          raise .poolLow s1
        else s1
      match a with
      | .fromLane l => some (n, s2.setIntake l ((s2.lane l).intake + 1))
      | .ofHost => some (n, { s2 with localCount := s2.localCount + 1 })
  else none

/-- Return everything an assembly holds: its record becomes FREE and its cells go to the free list in
the order it holds them (R24, R31). What the assembly itself becomes is `after`. -/
def State.returnAssembly (s : State) (l : Lane) (after : Assembly) : State :=
  let a := (s.lane l).asm
  let s := s.modLane l (LaneUnit.setAsm after)
  let s :=
    match a.record with
    | some h => s.setRecord h Record.cleared
    | none => s
  s.returnCells (some (.fromLane l)) a.cells

/-- Discard an assembly (R24). -/
def State.discardAssembly (s : State) (l : Lane) : State := s.returnAssembly l Assembly.start

/-! ### Reports (R155, R156) -/

/-- The send unit takes a report (R156). -/
def State.takeReport (s : State) (r : Report) : State :=
  if s.reports.length < 32 then raise .rpt { s with reports := s.reports ++ [r] }
  else bump .reportLost (raise .rptOvf s)

/-- A transmitter's entry ends: a report if its record is local, and then the drop (R93, R100, R129,
R155). -/
def State.endHolder (s : State) (l : Lane) (st : ReportStatus) (resends : Nat) (h : Handle) : State :=
  let s :=
    if (s.record h).arrival = some .ofHost then
      s.takeReport { handle := h, lane := l, status := st, resends := resends }
    else s
  s.dropRef h

/-! ### Replay list (R90 to R96) -/

/-- Load the replay timer with RTMO, paused while a partner hold is active (R91, R96). -/
def LaneUnit.loadReplayTimer (c : Settings) (u : LaneUnit) : LaneUnit :=
  let t := Countdown.load c.rtmo.toNat
  { u with replayTimer := if u.held then .paused t else .running t }

/-- A running replay timer pauses when a hold becomes active and keeps its beats (R96). What has gone of
the beat under way is kept with them (the model's choice, log 31). -/
def ReplayTimer.pause : ReplayTimer → ReplayTimer
  | .running t => .paused t
  | .stopped => .stopped
  | .paused t => .paused t

/-- A paused replay timer resumes when the hold ends (R96), in the middle of the beat that the pause
found it in (the model's choice, log 31). -/
def ReplayTimer.resume : ReplayTimer → ReplayTimer
  | .paused t => .running t
  | .stopped => .stopped
  | .running t => .running t

/-- The entry with a seq (R90). -/
def LaneUnit.entry? (u : LaneUnit) (q : Seq) : Option ReplayEntry :=
  u.replay.find? fun e => e.seq == q

/-- Mark acked every entry from the oldest up to and including the one with seq `q` (R93). -/
def markUpTo (q : Seq) : List ReplayEntry → List ReplayEntry
  | [] => []
  | e :: es => { e with acked := true } :: (if e.seq = q then es else markUpTo q es)

/-- The oldest entry not marked acked (R93, R96). -/
def LaneUnit.oldestUnacked (u : LaneUnit) : Option Seq :=
  (u.replay.find? fun e => !e.acked).map (·.seq)

/-- A pointer at an entry marked acked or removed moves to the oldest entry not marked acked (R93). -/
def LaneUnit.repoint (u : LaneUnit) : LaneUnit :=
  match u.pointer with
  | none => u
  | some q =>
    if u.replay.any fun e => e.seq == q && !e.acked then u
    else { u with pointer := u.oldestUnacked }

/-- An entry may leave the list: marked acked and not on wire (R93). -/
def ReplayEntry.leaves (e : ReplayEntry) : Bool := e.acked && !e.onWire

/-- Remove entries from the oldest end while they may leave, each with its DONE report and drop,
oldest first (R92, R93). -/
def State.removeAcked (s : State) (l : Lane) : State :=
  let u := s.lane l
  let gone := u.replay.takeWhile ReplayEntry.leaves
  let s := s.setLane l { u with replay := u.replay.dropWhile ReplayEntry.leaves }
  gone.foldl (fun s e => s.endHolder l .done e.attempts e.handle) s

/-! ### Teardown (R54) -/

/-- The forward queue of a class (R127). -/
def LaneUnit.fwd (u : LaneUnit) : TrafficClass → List Handle
  | .express => u.fwdX
  | .standard => u.fwdS

/-- The send queue of a class (R128). -/
def LaneUnit.send (u : LaneUnit) : TrafficClass → List Handle
  | .express => u.sendX
  | .standard => u.sendS

/-- Replace the forward queue of a class. -/
def LaneUnit.setFwd (u : LaneUnit) (c : TrafficClass) (q : List Handle) : LaneUnit :=
  match c with
  | .express => { u with fwdX := q }
  | .standard => { u with fwdS := q }

/-- Replace the send queue of a class. -/
def LaneUnit.setSend (u : LaneUnit) (c : TrafficClass) (q : List Handle) : LaneUnit :=
  match c with
  | .express => { u with sendX := q }
  | .standard => { u with sendS := q }

/-- The on-wire mark of an entry is cleared at the end of its transmission (R92). -/
def clearOnWire (q : Seq) (es : List ReplayEntry) : List ReplayEntry :=
  es.map fun e => if e.seq = q then { e with onWire := false } else e

/-- What the line still shows when a teardown cuts the unit in progress (R1, R56): a parcel ends with
ABT in place of the symbol that would have come next, at the rate in use; a link word is completed
(log 9). A symbol of which nothing has gone, the SOP of a parcel that starts in this instant with it,
counts as one that would have come next, and the cut is made at the symbol on the line also where an
earlier unit is still before the parcel there (the model's choice, log 9). -/
def LaneUnit.cutLine (u : LaneUnit) : List LineSymbol :=
  match u.unit with
  | .parcel _ => (if u.symGone = 0 then [] else u.txq.take 1) ++ [⟨.abt, u.rate⟩]
  | .word _ => u.txq
  | .none => u.txq

/-- Step 1 of R129: the unit in progress ends; an acked entry on wire leaves with the acked ones
behind it (R92, R100). -/
def State.endUnitAtTeardown (s : State) (l : Lane) : State :=
  let u := s.lane l
  let s := s.setLane l { u with unit := .none, txq := u.cutLine }
  match u.unit with
  | .parcel q =>
    (s.modLane l fun u => { u with replay := clearOnWire q u.replay }).removeAcked l
  | .word _ => s
  | .none => s

/-- Step 2 of R129: the replay list is emptied, oldest first, with a LOST report for each local entry
and a drop for each (R100). -/
def State.loseReplay (s : State) (l : Lane) : State :=
  let es := (s.lane l).replay
  let s := s.modLane l fun u => { u with replay := [] }
  es.foldl (fun s e => s.endHolder l .lost e.attempts e.handle) s

/-- Step 4 of R129 for one class: the forward queue is flushed from its head. -/
def State.flushForward (s : State) (l : Lane) (c : TrafficClass) : State :=
  let q := (s.lane l).fwd c
  let s := s.modLane l fun u => u.setFwd c []
  q.foldl (fun s h => (bump (.ofLane l .fwdFlushed) s).dropRef h) s

/-- Step 5 of R129 for one class: the send queue is cancelled from its head. -/
def State.cancelSend (s : State) (l : Lane) (c : TrafficClass) : State :=
  let q := (s.lane l).send c
  let s := s.modLane l fun u => u.setSend c []
  q.foldl (fun s h => s.endHolder l .cancelled 0 h) s

/-- What the lane's own state is after a teardown (R54, R78, R100, R104, R109, R115, R129). The
intake, the last fault, the loss-of-signal timing, what is left on the line and, for target SEEK, the
send queues stay; an OFF line with nothing left on it is quiet at once (R1). The quiet interval stays as
it stands also when the teardown ends the start grace before its 8 beats (the model's choice, log 30). -/
def LaneUnit.torn (c : Settings) (t : Target) (u : LaneUnit) : LaneUnit :=
  { LaneUnit.reset with
    state := (match t with | .seek => .seek | .off => .off)
    bringTimer := (match t with | .seek => some (.load (c.buplim.toNat * 256)) | .off => none)
    greetTimer := (match t with | .seek => some (.load 16) | .off => none)
    pendGreet := (match t with | .seek => true | .off => false)
    lastFault := u.lastFault
    quiet := u.quiet
    signalLost := u.signalLost
    sendX := u.sendX
    sendS := u.sendS
    intake := u.intake
    txq := u.txq
    symGone := (match t with | .seek => u.symGone | .off => if u.txq.isEmpty then 0 else u.symGone) }

/-- A teardown of a lane, one event (R54): the receiver's part (R78), then the transmitter's steps in
the order of R129, then the clearing of the lane, LANE, and HELD if a partner hold was active (R115). -/
def State.teardown (s : State) (l : Lane) (t : Target) : State :=
  let s := s.discardAssembly l
  let s := s.endUnitAtTeardown l
  let s := s.loseReplay l
  let s := (s.flushForward l .express).flushForward l .standard
  let s :=
    match t with
    | .off => (s.cancelSend l .express).cancelSend l .standard
    | .seek => s
  let s := if (s.lane l).held then raise (.held l) s else s
  raise (.lane l) (s.modLane l (LaneUnit.torn s.cfg t))

/-- The target of a teardown that the lane's own happenings cause: SEEK from UP, OFF from STOPPING
(R54). -/
def LaneState.target : LaneState → Target
  | .up => .seek
  | .off | .seek | .agree | .stopping => .off

/-- An involuntary teardown, counted in LANE_FAILURES and signalled by BRING (R55). -/
def State.failLane (s : State) (l : Lane) : State :=
  let t := (s.lane l).state.target
  (raise (.bring l) (bump (.ofLane l .laneFailures) s)).teardown l t

/-- The drain is complete when the replay list of a STOPPING lane is empty; it tears the lane down to
OFF (R53). -/
def State.drainCheck (s : State) (l : Lane) : State :=
  if (s.lane l).state = .stopping ∧ (s.lane l).replay = [] then s.teardown l .off else s

/-! ### Acknowledgement (R93) -/

/-- After an acknowledgement's removals: the pointer moves on, and the replay timer is reloaded, or
stopped if the list is empty (R93). -/
def LaneUnit.afterAck (c : Settings) (u : LaneUnit) : LaneUnit :=
  let u := u.repoint
  if u.replay.isEmpty then { u with replayTimer := .stopped } else u.loadReplayTimer c

/-- Acknowledge up to a seq (R93), less the drain report. -/
def State.ackEntries (s : State) (l : Lane) (q : Seq) : State :=
  let s := s.modLane l fun u => { u with replay := markUpTo q u.replay }
  let s := s.removeAcked l
  s.modLane l (LaneUnit.afterAck s.cfg)

/-- Acknowledge up to a seq (R93). -/
def State.acknowledge (s : State) (l : Lane) (q : Seq) : State := (s.ackEntries l q).drainCheck l

end Sys2Proof.Machine
end

