-- ==== Sys2Proof/Machine/BringUp.lean ====
section
/-! DEFINITION. Bring-up control (chapter 3): the lane commands, the judgement of GREET words, loss of
signal, and the bring-up, GREET interval, stop and grace timers. -/

namespace Sys2Proof.Machine

/-! ### Lane commands (R41, R42, R51, R52) -/

/-- The configuration checks of LANE ENABLE (R42). -/
def Settings.laneFit (c : Settings) (l : Lane) : Bool :=
  let m := c.lane l
  inRange 1 239 c.station.toNat
    && m.lcfg.getLsbD 0
    && decide (m.hrel.toNat < m.hstd.toNat)
    && decide (m.hstd.toNat ≤ m.hall.toNat)
    && decide (m.hall.toNat + 8 ≤ m.cap.toNat)
    && decide (c.hrenew.toNat < c.htime.toNat)

/-- A lane leaves OFF for SEEK (R42 steps 1 to 5; R4: the signal-lost condition is clear and the
timing starts; R1: the line is driven from here on, with a fresh IDL when nothing is left on it). -/
def LaneUnit.enable (c : Settings) (u : LaneUnit) : LaneUnit :=
  { u with
      lastFault := .none, state := .seek, neighbour := none, identical := 0, sent := 0
      bringTimer := some (.load (c.buplim.toNat * 256)), framing := .between, quiet := .load 4
      signalLost := false, symGone := if u.txq.isEmpty then 0 else u.symGone }.requestGreet

/-- LANE ENABLE (R41, R42). -/
def State.cmdLaneEnable (s : State) (arg : Byte) : State :=
  match laneOfArg arg with
  | none => refuse .refusedArg s
  | some l =>
    if (s.lane l).state ≠ .off then refuse .refusedState s
    else if !s.cfg.laneFit l then refuse .refusedConfig s
    else taken (raise (.lane l) (s.modLane l (LaneUnit.enable s.cfg)))

/-- LANE STOP taken in UP: STOPPING with the stop timer loaded; with an empty replay list the drain is
complete at once (R51, R53). -/
def State.enterStopping (s : State) (l : Lane) : State :=
  let s := s.modLane l fun u => { u with state := .stopping, stopTimer := some (.load s.cfg.stoptmo.toNat) }
  (raise (.lane l) s).drainCheck l

/-- LANE STOP (R41, R51). -/
def State.cmdLaneStop (s : State) (arg : Byte) : State :=
  match laneOfArg arg with
  | none => refuse .refusedArg s
  | some l =>
    match (s.lane l).state with
    | .off => refuse .refusedState s
    | .seek => taken (s.teardown l .off)
    | .agree => taken (s.teardown l .off)
    | .up => taken (s.enterStopping l)
    | .stopping => refuse .refusedBusy s

/-- LANE ABORT (R41, R52). -/
def State.cmdLaneAbort (s : State) (arg : Byte) : State :=
  match laneOfArg arg with
  | none => refuse .refusedArg s
  | some l =>
    if (s.lane l).state = .off then refuse .refusedState s else taken (s.teardown l .off)

/-- Command LANE_ENABLE. -/
def execLaneEnable (arg : Byte) (s : State) : Host.Outcome State Fault Refusal :=
  .next (s.onWrite (·.cmdLaneEnable arg))

/-- Command LANE_STOP. -/
def execLaneStop (arg : Byte) (s : State) : Host.Outcome State Fault Refusal :=
  .next (s.onWrite (·.cmdLaneStop arg))

/-- Command LANE_ABORT. -/
def execLaneAbort (arg : Byte) (s : State) : Host.Outcome State Fault Refusal :=
  .next (s.onWrite (·.cmdLaneAbort arg))

/-! ### State changes and faults (R44, R46, R48, R50) -/

/-- Record a bring-up fault (R50). -/
def State.recordFault (s : State) (l : Lane) (f : BringFault) : State :=
  raise (.bring l) (bump (.ofLane l .bringupFaults) (s.modLane l fun u => { u with lastFault := f }))

/-- Enter AGREE by a GREET, which is taken as the first GREET received in AGREE (R44). -/
def State.enterAgree (s : State) (l : Lane) (g : Greet) : State :=
  raise (.lane l) (s.modLane l fun u =>
    { u with state := .agree, neighbour := some g, identical := if g.ack then 1 else 0,
             sent := 0 }.requestGreet)

/-- Return from AGREE to SEEK, which is no teardown (R48). -/
def State.returnToSeek (s : State) (l : Lane) : State :=
  raise (.lane l) (s.modLane l fun u =>
    { u with state := .seek, neighbour := none, identical := 0, sent := 0 }.requestGreet)

/-- The rates that the neighbour record and the rate mask have in common (R46). -/
def LaneUnit.commonRates (m : LaneSettings) (u : LaneUnit) : BitVec 3 :=
  ((u.neighbour.map Greet.rates).getD 0) &&& m.rateMask

/-- Enter UP (R46): terms agreed, timers stopped, a pending GREET withdrawn, the start grace begun,
the own hold evaluated as a change from CLEAR (R105). -/
def LaneUnit.enterUp (c : Settings) (m : LaneSettings) (u : LaneUnit) : LaneUnit :=
  let u' :=
    { u with
      state := .up, agreed := highestRate (u.commonRates m)
      holdUse := m.holdSupport && (u.neighbour.map Greet.hold).getD false
      bringTimer := none, greetTimer := none, pendGreet := false, grace := some (.load 8) }
  u'.holdUnit c m

/-- The UP condition of R46, tested each time either count changes. -/
def State.tryEnterUp (s : State) (l : Lane) : State :=
  let u := s.lane l
  if u.state = .agree ∧ 2 ≤ u.identical ∧ 2 ≤ u.sent then
    raise (.lane l) (s.modLane l (LaneUnit.enterUp s.cfg (s.cfg.lane l)))
  else s

/-- A GREET names this station's own id (R44, R45). -/
def Settings.ownGreet (c : Settings) (g : Greet) : Bool := g.station.toNat == c.station.toNat

/-- A GREET's rate set and the lane's rate mask have a rate in common (R44, R45). -/
def LaneSettings.sharesRate (m : LaneSettings) (g : Greet) : Bool := (g.rates &&& m.rateMask) != 0

/-- A GREET judged in SEEK (R44). -/
def State.greetInSeek (s : State) (l : Lane) (g : Greet) : State :=
  if s.cfg.ownGreet g then s.recordFault l .duplicate
  else if !(s.cfg.lane l).sharesRate g then s.recordFault l .mismatch
  else s.enterAgree l g

/-- The identical count after a GREET in AGREE (R45). -/
def identicalAfter (n : Nat) (old : Option Greet) (g : Greet) : Nat :=
  if !g.ack then 0 else if old = some g then min (n + 1) 255 else 1

/-- A GREET judged in AGREE (R45, R46). -/
def State.greetInAgree (s : State) (l : Lane) (g : Greet) : State :=
  if s.cfg.ownGreet g then (s.recordFault l .duplicate).returnToSeek l
  else if !(s.cfg.lane l).sharesRate g then (s.recordFault l .mismatch).returnToSeek l
  else
    (s.modLane l fun u =>
      { u with identical := identicalAfter u.identical u.neighbour g,
               neighbour := some g }).tryEnterUp l

/-- A late copy of the agreement (R47). -/
def LaneUnit.lateCopy (u : LaneUnit) (g : Greet) : Bool :=
  u.grace.isSome && g.ack && u.neighbour == some g

/-- A valid GREET reaches bring-up control (R44, R45, R47; in OFF nothing is received, R16). -/
def State.takeGreet (s : State) (l : Lane) (g : Greet) : State :=
  match (s.lane l).state with
  | .off => s
  | .seek => s.greetInSeek l g
  | .agree => s.greetInAgree l g
  | .up => if (s.lane l).lateCopy g then s else (s.failLane l).greetInSeek l g
  | .stopping => s.failLane l

/-! ### Loss of signal and timers -/

/-- The receiver watches for loss of signal (R4): not in OFF, not in the start grace, and not again
before the next transition. -/
def LaneUnit.watches (u : LaneUnit) : Bool :=
  u.state != .off && u.grace.isNone && !u.signalLost

/-- Bring-up control acts on loss of signal (R48). -/
def State.actOnLoss (s : State) (l : Lane) : State :=
  match (s.lane l).state with
  | .off => s
  | .seek => s
  | .agree => s.returnToSeek l
  | .up => s.failLane l
  | .stopping => s.failLane l

/-- Loss of signal is raised (R4): the signal-lost condition is entered, an open link word is discarded
without being counted, and the framing state becomes BETWEEN. -/
def State.signalLoss (s : State) (l : Lane) : State :=
  if (s.lane l).watches then
    (s.modLane l fun u =>
      { u with signalLost := true, framing := .between, quiet := .load 0 }).actOnLoss l
  else s

/-- The start grace ends and the quiet-interval timing restarts (R4). -/
def State.endGrace (s : State) (l : Lane) : State :=
  if (s.lane l).grace.isSome then s.modLane l fun u => { u with grace := none, quiet := .load 4 }
  else s

/-- The GREET interval timer expires (R43). -/
def State.expireGreetInterval (s : State) (l : Lane) : State :=
  if (s.lane l).state.greets && (s.lane l).greetTimer.isSome then s.modLane l LaneUnit.requestGreet
  else s

/-- The bring-up timer is loaded (R49). -/
def State.loadBringTimer (s : State) (l : Lane) : State :=
  s.modLane l fun u => { u with bringTimer := some (.load (s.cfg.buplim.toNat * 256)) }

/-- The bring-up timer expires (R49). -/
def State.expireBringUp (s : State) (l : Lane) : State :=
  if (s.lane l).bringTimer.isSome then
    match (s.lane l).state with
    | .seek => (s.recordFault l .timeout).loadBringTimer l
    | .agree => ((s.recordFault l .timeout).returnToSeek l).loadBringTimer l
    | .off => s
    | .up => s
    | .stopping => s
  else s

/-- The stop timer expires (R53). -/
def State.expireStop (s : State) (l : Lane) : State :=
  if (s.lane l).state = .stopping ∧ (s.lane l).stopTimer.isSome then s.teardown l .off else s

/-- Command LOSS_OF_SIGNAL. -/
def execLossOfSignal (l : Lane) (s : State) : Host.Outcome State Fault Refusal :=
  .next (s.signalLoss l)

/-- Command START_GRACE_END. -/
def execStartGraceEnd (l : Lane) (s : State) : Host.Outcome State Fault Refusal :=
  .next (s.endGrace l)

/-- Command GREET_INTERVAL_EXPIRY. -/
def execGreetIntervalExpiry (l : Lane) (s : State) : Host.Outcome State Fault Refusal :=
  .next (s.expireGreetInterval l)

/-- Command BRING_UP_TIMER_EXPIRY. -/
def execBringUpTimerExpiry (l : Lane) (s : State) : Host.Outcome State Fault Refusal :=
  .next (s.expireBringUp l)

/-- Command STOP_TIMER_EXPIRY. -/
def execStopTimerExpiry (l : Lane) (s : State) : Host.Outcome State Fault Refusal :=
  .next (s.expireStop l)

end Sys2Proof.Machine
end

