-- ==== Sys2Proof/Machine/LinkWords.lean ====
section
/-! DEFINITION. Link words received: what their owners do with an ACK (R94), a REPLAY (R95), a HOLD
(R103, R111) and a GREET, and the expiry of the timers of acknowledgement, replay and holds (R87, R96,
R107, R112). -/

namespace Sys2Proof.Machine

/-! ### ACK and REPLAY (R94, R95) -/

/-- An ACK matched against the replay list (R94). -/
def State.takeAck (s : State) (l : Lane) (q : Seq) : State :=
  if ((s.lane l).entry? q).isSome then s.acknowledge l q else bump (.ofLane l .ackStray) s

/-- The replay pointer is set to an entry and the timer reloaded (R95). -/
def LaneUnit.replayFrom (c : Settings) (q : Seq) (u : LaneUnit) : LaneUnit :=
  { u with pointer := some q }.loadReplayTimer c

/-- A REPLAY matched against the replay list (R95). -/
def State.matchReplay (s : State) (l : Lane) (q : Seq) : State :=
  let u := s.lane l
  match u.entry? q with
  | some e =>
    if e.acked then bump (.ofLane l .ackStray) s
    else
      let s := if (u.replay.head?.map (·.seq)) = some q then s else s.ackEntries l (q - 1)
      s.modLane l (LaneUnit.replayFrom s.cfg q)
  | none =>
    if q = u.nextSeq then
      if u.replay.isEmpty then s else s.acknowledge l (u.nextSeq - 1)
    else bump (.ofLane l .ackStray) s

/-- A REPLAY taken by the transmitter (R95). -/
def State.takeReplay (s : State) (l : Lane) (q : Seq) : State :=
  (bump (.ofLane l .replayRx) s).matchReplay l q

/-! ### HOLD (R103, R111) -/

/-- The partner hold after a HOLD word (R111), and the replay timer with it (R96). -/
def LaneUnit.setPartner (sc : HoldScope) (t : BitVec 12) (u : LaneUnit) : LaneUnit :=
  if t = 0 then { u with partnerTimer := .load 0, replayTimer := u.replayTimer.resume }
  else
    { u with partnerScope := sc, partnerTimer := .load t.toNat, replayTimer := u.replayTimer.pause }

/-- A valid HOLD taken by the transmitter: on a lane without hold use it is counted in WORD_BAD and
has no other effect (R103); otherwise R111. -/
def State.takeHold (s : State) (l : Lane) (sc : HoldScope) (t : BitVec 12) : State :=
  if (s.lane l).holdUse then
    let before := (s.lane l).held
    let s := (bump (.ofLane l .holdRx) s).modLane l (LaneUnit.setPartner sc t)
    if before != (s.lane l).held then raise (.held l) s else s
  else bump (.ofLane l .wordBad) s

/-! ### Handing over (R16) -/

/-- A valid link word goes to its owner according to the lane state (R16). -/
def State.takeWord (s : State) (l : Lane) (w : LinkWord) : State :=
  match w with
  | .ack q => if (s.lane l).state.carries then s.takeAck l q else s
  | .replay q => if (s.lane l).state.carries then s.takeReplay l q else s
  | .hold sc t => if (s.lane l).state.carries then s.takeHold l sc t else s
  | .greet g => s.takeGreet l g

/-! ### Timers -/

/-- The ACK delay timer expires (R87). -/
def State.expireAckDelay (s : State) (l : Lane) : State :=
  if (s.lane l).ackTimer.isSome then s.modLane l LaneUnit.acknowledgeNow else s

/-- The replay timer expires (R96): only a running one can. -/
def LaneUnit.expireReplay (c : Settings) (u : LaneUnit) : LaneUnit :=
  match u.replayTimer with
  | .running _ => { u with pointer := u.oldestUnacked, replayTimer := .running (.load c.rtmo.toNat) }
  | .stopped => u
  | .paused _ => u

/-- The replay timer expires (R96). -/
def State.expireReplayTimer (s : State) (l : Lane) : State :=
  s.modLane l (LaneUnit.expireReplay s.cfg)

/-- The renew timer expires while holding: it stops, and the HOLD of the present state is requested
again (R107). -/
def LaneUnit.expireRenew (c : Settings) (u : LaneUnit) : LaneUnit :=
  if u.renewTimer.isSome then
    match u.ownHold with
    | .holdStd => { u.requestHold .standard c.holdTime with renewTimer := none }
    | .holdAll => { u.requestHold .all c.holdTime with renewTimer := none }
    | .clear => u
  else u

/-- The renew timer expires (R107). -/
def State.expireRenewTimer (s : State) (l : Lane) : State :=
  s.modLane l (LaneUnit.expireRenew s.cfg)

/-- The partner hold timer reaches 0 (R112). -/
def State.expirePartner (s : State) (l : Lane) : State :=
  if (s.lane l).held then
    raise (.held l) (s.modLane l fun u =>
      { u with partnerTimer := .load 0, replayTimer := u.replayTimer.resume })
  else s

/-- Command ACK_DELAY_EXPIRY. -/
def execAckDelayExpiry (l : Lane) (s : State) : Host.Outcome State Fault Refusal :=
  .next (s.expireAckDelay l)

/-- Command REPLAY_TIMER_EXPIRY. -/
def execReplayTimerExpiry (l : Lane) (s : State) : Host.Outcome State Fault Refusal :=
  .next (s.expireReplayTimer l)

/-- Command RENEW_TIMER_EXPIRY. -/
def execRenewTimerExpiry (l : Lane) (s : State) : Host.Outcome State Fault Refusal :=
  .next (s.expireRenewTimer l)

/-- Command PARTNER_HOLD_EXPIRY. -/
def execPartnerHoldExpiry (l : Lane) (s : State) : Host.Outcome State Fault Refusal :=
  .next (s.expirePartner l)

end Sys2Proof.Machine
end

