-- ==== Sys2Proof/Machine/Reception.lean ====
section
/-! DEFINITION. Reception (chapters 1, 4 and 5): framing, the assembly of parcels, the check verdict,
the sequence test, classification and handover, and the commands that bring a symbol or a whole link
word. -/

namespace Sys2Proof.Machine

/-! ### The sequence test (R81 to R85) -/

/-- The distance d = (expected − s) modulo 64 (R17). -/
def seqDistance (e q : Seq) : Nat := (e - q).toNat

/-- The four outcomes of the sequence test (R81). -/
inductive SeqOutcome where
  | accepted
  | overrun
  | duplicate
  | gap
deriving DecidableEq, Repr

/-- The outcome for a seq and the overrun mark (R81). -/
def sequenceTest (e q : Seq) (overrun : Bool) : SeqOutcome :=
  let d := seqDistance e q
  if d = 0 then (if overrun then .overrun else .accepted)
  else if d ≤ 32 then .duplicate
  else .gap

/-- A gap or a BAD parcel requests REPLAY(expected) unless one of the two flags is set (R84). -/
def LaneUnit.askReplay (u : LaneUnit) : LaneUnit :=
  if u.replayRequested || u.replayOwed then u
  else { u.requestReplay u.expected with replayRequested := true }

/-- The receiver's changes for an accepted parcel (R82, R87). -/
def LaneUnit.accept (c : Settings) (u : LaneUnit) : LaneUnit :=
  let u :=
    { u with expected := u.expected + 1, replayRequested := false,
             accSinceAck := u.accSinceAck + 1 }
  if 8 ≤ u.accSinceAck then u.acknowledgeNow
  else if u.ackTimer.isNone then { u with ackTimer := some (.load c.ackdly.toNat) }
  else u

/-- A parcel with the verdict BAD (R65, R84). -/
def State.badParcel (s : State) (l : Lane) : State :=
  (bump (.ofLane l .rxBad) (s.discardAssembly l)).modLane l LaneUnit.askReplay

/-- A gap (R84). -/
def State.gapParcel (s : State) (l : Lane) : State :=
  (bump (.ofLane l .rxGap) (s.discardAssembly l)).modLane l LaneUnit.askReplay

/-- A duplicate (R83). -/
def State.duplicateParcel (s : State) (l : Lane) : State :=
  (bump (.ofLane l .rxDup) (s.discardAssembly l)).modLane l LaneUnit.acknowledgeNow

/-- An overrun parcel at the expected seq (R85). -/
def State.overrunParcel (s : State) (l : Lane) : State :=
  (bump (.ofLane l .rxOverrun) (s.discardAssembly l)).modLane l fun u =>
    { u with replayOwed := true }

/-! ### Classification and handover (R69 to R76) -/

/-- The route table entry for a station id (R71). -/
def State.routeFor (s : State) (dest : Byte) : Option RouteAction :=
  (s.routes.toList.findSome? fun e => e.bind fun e =>
    if e.station = dest then some e.action else none)

/-- The parts a parcel may have by its dest (R69). -/
structure Parts where
  deliver : Bool
  forward : Bool
deriving DecidableEq, Repr

/-- Whether group 240 + g is in the group set (R69, R70). -/
def Settings.inGroup (c : Settings) (dest : Byte) : Bool := c.groups.getLsbD (dest.toNat - 240)

/-- The parts by dest (R69); the last component says that ROUTE_DISCARD is counted. -/
def State.partsOf (s : State) (dest : Byte) : Parts × Bool :=
  if dest.toNat = s.cfg.station.toNat then (⟨true, false⟩, false)
  else if dest = 255 then (⟨true, true⟩, false)
  else if 240 ≤ dest.toNat then (⟨s.cfg.inGroup dest, true⟩, false)
  else
    match s.routeFor dest with
    | none => (⟨false, true⟩, false)
    | some .forward => (⟨false, true⟩, false)
    | some .adopt => (⟨true, false⟩, false)
    | some .discard => (⟨false, false⟩, true)

/-- The delivery queue of a class (R133). -/
def State.dq (s : State) : TrafficClass → List Handle
  | .express => s.dqX
  | .standard => s.dqS

/-- Replace the delivery queue of a class. -/
def State.setDq (s : State) (c : TrafficClass) (q : List Handle) : State :=
  match c with
  | .express => { s with dqX := q }
  | .standard => { s with dqS := q }

/-- The depth limit of a delivery queue (R135). -/
def Settings.depthLimit (c : Settings) : TrafficClass → Nat
  | .express => (loByte c.ddepth).toNat
  | .standard => (hiByte c.ddepth).toNat

/-- The cause raised by a join to a delivery queue (R134). -/
def joinCause : TrafficClass → Cause
  | .express => .dlvX
  | .standard => .dlvS

/-- Whether a deliver part survives (R75). -/
def State.deliverSurvives (s : State) (c : TrafficClass) : Bool :=
  decide ((s.dq c).length < s.cfg.depthLimit c)

/-- The first test of R74 that a forward part fails, as the counter it increases; none if it
survives. -/
def State.forwardFails (s : State) (l : Lane) (h : Header) : Option LaneCounter :=
  if h.hop = 0 then some .fwdHopExpired
  else if (s.lane (otherLane l)).state ≠ .up then some .fwdNoLane
  else if s.cfg.fdepth.toNat ≤ ((s.lane (otherLane l)).fwd h.cls).length then some .fwdFull
  else none

/-- The record of an accepted parcel at handover (R76 steps 1 to 3). -/
def Record.handover (h : Header) (a : Arrival) (cells : List CellNo) (refs : Nat) : Record :=
  { cls := h.cls, dest := h.dest, origin := h.origin, hop := h.hop, tag := h.tag,
    length := h.length, arrival := some a, chain := cells, refs := refs, compose := false,
    assembly := none }

/-- Join a delivery queue, with its event (R134). -/
def State.joinDelivery (s : State) (c : TrafficClass) (h : Handle) : State :=
  raise (joinCause c) (s.setDq c (s.dq c ++ [h]))

/-- Join a forward queue of a lane (R127). -/
def State.joinForward (s : State) (l : Lane) (c : TrafficClass) (h : Handle) : State :=
  s.modLane l fun u => u.setFwd c (u.fwd c ++ [h])

/-- The surviving parts are handed over (R76); with none the record is freed at once (R26). -/
def State.handover (s : State) (l : Lane) (hd : Header) (deliver forward : Bool) : State :=
  let a := (s.lane l).asm
  let s := s.modLane l (LaneUnit.setAsm Assembly.start)
  match a.record with
  | none => s.returnCells (some (.fromLane l)) a.cells
  | some h =>
    let refs := deliver.toNat + forward.toNat
    let s := s.setRecord h (Record.handover hd (.fromLane l) a.cells refs)
    let s := if deliver then s.joinDelivery hd.cls h else s
    let s := if forward then s.joinForward (otherLane l) hd.cls h else s
    if refs = 0 then s.freeRecord h else s

/-- An accepted, well-formed parcel of another origin is classified and handed over (R69, R74 to
R76). -/
def State.classify (s : State) (l : Lane) (hd : Header) : State :=
  let p := s.partsOf hd.dest
  let deliver := p.1.deliver && s.deliverSurvives hd.cls
  let fwdFail := s.forwardFails l hd
  let forward := p.1.forward && fwdFail.isNone
  let s' := if p.2 then bump .routeDiscard s else s
  let s' := if p.1.deliver && !deliver then bump (.dlvFull hd.cls) s' else s'
  let s' :=
    match fwdFail with
    | some c => if p.1.forward then bump (.ofLane l c) s' else s'
    | none => s'
  s'.handover l hd deliver forward

/-- The tests an accepted parcel goes through in the same event (R66 to R69). -/
def State.acceptedParcel (s : State) (l : Lane) (hd : Header) (received : Nat) : State :=
  let s := bump (.ofLane l .rxAccepted) (s.modLane l (LaneUnit.accept s.cfg))
  if hd.malformed received then (bump (.ofLane l .rxMalformed) s).discardAssembly l
  else if hd.origin.toNat = s.cfg.station.toNat then
    (bump (.ofLane l .rxStripped) s).discardAssembly l
  else s.classify l hd

/-- The check word of a parcel is right (R8, R65): at least 10 bytes, and the running check over all
but the last two equals those two, high byte first. -/
def Assembly.checkGood (a : Assembly) : Bool :=
  decide (10 ≤ a.byteCount) && a.crcBeforeCheck == wordOf (a.check.getD 0 0) (a.check.getD 1 0)

/-- An EOP closes an open assembly (R65, R66). -/
def State.closeAssembly (s : State) (l : Lane) : State :=
  let a := (s.lane l).asm
  if a.checkGood then
    let hd := Header.decode a.header
    match sequenceTest (s.lane l).expected hd.seq a.overrun with
    | .accepted => s.acceptedParcel l hd (a.byteCount - 10)
    | .overrun => s.overrunParcel l
    | .duplicate => s.duplicateParcel l
    | .gap => s.gapParcel l
  else s.badParcel l

/-- An ABT closes an open assembly (R64). -/
def State.abandonAssembly (s : State) (l : Lane) : State :=
  bump (.ofLane l .rxAborted) (s.discardAssembly l)

/-! ### The assembly (R61 to R63) -/

/-- An SOP opens an assembly with a record request (R61, R22). -/
def State.openAssembly (s : State) (l : Lane) : State :=
  match s.lowestFree with
  | some h =>
    (s.setRecord h { Record.cleared with arrival := some (.fromLane l), assembly := some l }).modLane l
      (LaneUnit.setAsm { Assembly.start with isOpen := true, record := some h })
  | none =>
    s.modLane l (LaneUnit.setAsm { Assembly.start with isOpen := true, overrun := true })

/-- A refused cell request: the assembly is marked overrun and everything it holds goes back (R31). -/
def State.overrunAssembly (s : State) (l : Lane) : State :=
  s.returnAssembly l { (s.lane l).asm with overrun := true, record := none, cells := [] }

/-- A byte released from the check holding is stored (R63 steps 1 to 3). -/
def State.storeByte (s : State) (l : Lane) (b : Byte) : State :=
  let a := (s.lane l).asm
  if a.overrun || decide (a.limit ≤ a.stored) then s
  else if a.stored % 64 = 0 then
    match s.requestCell (.fromLane l) (Header.decode a.header).cls with
    | some (n, s') =>
      (s'.writeCell n a.stored b).modLane l
        (LaneUnit.setAsm { a with cells := a.cells ++ [n], stored := a.stored + 1 })
    | none => s.overrunAssembly l
  else
    let s :=
      match a.cells.getLast? with
      | some n => s.writeCell n a.stored b
      | none => s
    s.modLane l (LaneUnit.setAsm { a with stored := a.stored + 1 })

/-- A data byte is added to an open assembly (R62, R63): to the header holding, or to the check holding
with the byte that was there two bytes earlier going to the payload. -/
def State.assembleByte (s : State) (l : Lane) (b : Byte) : State :=
  let a := (s.lane l).asm
  let a1 := { a with byteCount := min (a.byteCount + 1) 1024, crc := crc16Byte a.crc b }
  if a.header.length < 8 then
    let hs := a.header ++ [b]
    let limit := if hs.length = 8 ∧ 512 < (Header.decode hs).length then 0 else a.limit
    s.modLane l
      (LaneUnit.setAsm { a1 with header := hs, limit := limit, crcBeforeCheck := a1.crc })
  else
    match a.check with
    | [x, y] =>
      (s.modLane l
        (LaneUnit.setAsm
          { a1 with check := [y, b],
                    crcBeforeCheck := crc16Byte a.crcBeforeCheck x })).storeByte l x
    | held => s.modLane l (LaneUnit.setAsm { a1 with check := held ++ [b] })

/-! ### Framing (R2, R3) -/

/-- Set the framing state. -/
def State.setFraming (s : State) (l : Lane) (f : Framing) : State :=
  s.modLane l fun u => { u with framing := f }

/-- A symbol breaks the framing of an open unit, which is closed as damaged (R3); the receiver is then
in BETWEEN. A parcel whose SOP opened no assembly is ignored (R16). -/
def State.breakUnit (s : State) (l : Lane) : State :=
  match (s.lane l).framing with
  | .between => s
  | .inParcel =>
    let s := s.setFraming l .between
    if (s.lane l).asm.isOpen then s.badParcel l else s
  | .inWord _ => bump (.ofLane l .wordBad) (s.setFraming l .between)

/-- The fifth byte completes a link word, which is judged and handed over (R2, R12, R16). -/
def State.completeWord (s : State) (l : Lane) (bytes : List Byte) : State :=
  match judgeWord bytes with
  | some w => s.takeWord l w
  | none => bump (.ofLane l .wordBad) s

/-- An SOP (R2, R3, R61). -/
def State.takeSop (s : State) (l : Lane) : State :=
  let s := (s.breakUnit l).setFraming l .inParcel
  if (s.lane l).state.carries then s.openAssembly l else s

/-- An SOW (R2, R3). -/
def State.takeSow (s : State) (l : Lane) : State := (s.breakUnit l).setFraming l (.inWord [])

/-- An IDL (R2, R3). -/
def State.takeIdl (s : State) (l : Lane) : State := s.breakUnit l

/-- A data byte (R2). -/
def State.takeData (s : State) (l : Lane) (b : Byte) : State :=
  match (s.lane l).framing with
  | .between => s
  | .inParcel => if (s.lane l).asm.isOpen then s.assembleByte l b else s
  | .inWord bs =>
    if bs.length < 4 then s.setFraming l (.inWord (bs ++ [b]))
    else (s.setFraming l .between).completeWord l (bs ++ [b])

/-- An EOP (R2, R3, R65). -/
def State.takeEop (s : State) (l : Lane) : State :=
  match (s.lane l).framing with
  | .between => s
  | .inParcel =>
    let s := s.setFraming l .between
    if (s.lane l).asm.isOpen then s.closeAssembly l else s
  | .inWord _ => s.breakUnit l

/-- An ABT (R2, R3, R64). -/
def State.takeAbt (s : State) (l : Lane) : State :=
  match (s.lane l).framing with
  | .between => s
  | .inParcel =>
    let s := s.setFraming l .between
    if (s.lane l).asm.isOpen then s.abandonAssembly l else s
  | .inWord _ => s.breakUnit l

/-- A transition on the incoming line: the signal-lost condition ends and the quiet interval starts
anew (R4). -/
def LaneUnit.transition (u : LaneUnit) : LaneUnit := { u with quiet := .load 4, signalLost := false }

/-- A symbol arrives at the receiver's rate. In OFF the receiver takes no symbols and does not time the
line (R4). -/
def State.onSymbol (s : State) (l : Lane) (f : State → State) : State :=
  if (s.lane l).state = .off then s else f (s.modLane l LaneUnit.transition)

/-- A whole link word completes (log 6): a parcel that was open is closed by the word's SOW (R3), a
link word that was open is this one, and the framing state becomes BETWEEN (R2). -/
def State.closeForWord (s : State) (l : Lane) : State :=
  match (s.lane l).framing with
  | .between => s
  | .inParcel => s.breakUnit l
  | .inWord _ => s.setFraming l .between

/-- A whole valid link word completes on a lane and goes to its owner (R16; log 6). -/
def State.onWord (s : State) (l : Lane) (w : LinkWord) : State :=
  s.onSymbol l fun s => (s.closeForWord l).takeWord l w

/-- Command SOP_RECEIVED. -/
def execSopReceived (l : Lane) (s : State) : Host.Outcome State Fault Refusal :=
  .next (s.onSymbol l (·.takeSop l))

/-- Command SOW_RECEIVED. -/
def execSowReceived (l : Lane) (s : State) : Host.Outcome State Fault Refusal :=
  .next (s.onSymbol l (·.takeSow l))

/-- Command IDL_RECEIVED. -/
def execIdlReceived (l : Lane) (s : State) : Host.Outcome State Fault Refusal :=
  .next (s.onSymbol l (·.takeIdl l))

/-- Command DATA_BYTE_RECEIVED. -/
def execDataByteReceived (l : Lane) (b : Byte) (s : State) : Host.Outcome State Fault Refusal :=
  .next (s.onSymbol l (·.takeData l b))

/-- Command EOP_RECEIVED. -/
def execEopReceived (l : Lane) (s : State) : Host.Outcome State Fault Refusal :=
  .next (s.onSymbol l (·.takeEop l))

/-- Command ABT_RECEIVED. -/
def execAbtReceived (l : Lane) (s : State) : Host.Outcome State Fault Refusal :=
  .next (s.onSymbol l (·.takeAbt l))

/-- Command ACK_RECEIVED. -/
def execAckReceived (l : Lane) (seq : Seq) (s : State) : Host.Outcome State Fault Refusal :=
  .next (s.onWord l (.ack seq))

/-- Command REPLAY_RECEIVED. -/
def execReplayReceived (l : Lane) (seq : Seq) (s : State) : Host.Outcome State Fault Refusal :=
  .next (s.onWord l (.replay seq))

/-- Command HOLD_RECEIVED. -/
def execHoldReceived (l : Lane) (scope : HoldScope) (time : BitVec 12) (s : State) :
    Host.Outcome State Fault Refusal :=
  .next (s.onWord l (.hold scope time))

/-- Command GREET_RECEIVED. A term whose station id is outside 1 to 239 stands for a GREET that is bad
(R12): it is counted in WORD_BAD and discarded. -/
def execGreetReceived (l : Lane) (g : Greet) (s : State) : Host.Outcome State Fault Refusal :=
  if inRange 1 239 g.station.toNat then .next (s.onWord l (.greet g))
  else .next (s.onSymbol l fun s => bump (.ofLane l .wordBad) (s.closeForWord l))

/-- Command SYMBOL_AT_OTHER_RATE: no symbol is taken, no unit closed and no framing state changed, but
the loss-of-signal timing starts anew (R46). -/
def execSymbolAtOtherRate (l : Lane) (s : State) : Host.Outcome State Fault Refusal :=
  .next (s.onSymbol l id)

end Sys2Proof.Machine
end

