-- ==== Sys2Proof/Machine/Delivery.lean ====
section
/-! DEFINITION. The delivery unit (chapter 8): TAKE, the read window, RELEASE. -/

namespace Sys2Proof.Machine

/-- The queue a TAKE argument chooses, the conditions being passed in order (R136): the result, or the
class whose head is taken. -/
def State.takeChoice (s : State) (arg : Byte) : Except CmdResult TrafficClass :=
  if 2 < arg.toNat then .error .refusedArg
  else if s.slot.isSome then .error .refusedBusy
  else if arg = 0 then (if s.dqX.isEmpty then .error .refusedEmpty else .ok .express)
  else if arg = 1 then (if s.dqS.isEmpty then .error .refusedEmpty else .ok .standard)
  else if !s.dqX.isEmpty then .ok .express
  else if !s.dqS.isEmpty then .ok .standard
  else .error .refusedEmpty

/-- The head of a delivery queue moves into the open slot (R137). -/
def State.openHead (s : State) (c : TrafficClass) : State :=
  let s :=
    match c with
    | .express => { s with slot := s.dqX.head?, dqX := s.dqX.drop 1 }
    | .standard => { s with slot := s.dqS.head?, dqS := s.dqS.drop 1 }
  { s with readPos := 0, readPast := false }

/-- TAKE (R136, R137). -/
def State.cmdTake (s : State) (arg : Byte) : State :=
  match s.takeChoice arg with
  | .error r => refuse r s
  | .ok c => taken (s.openHead c)

/-- RELEASE; the argument is not examined (R141). -/
def State.cmdRelease (s : State) (_arg : Byte) : State :=
  match s.slot with
  | none => refuse .refusedState s
  | some h => taken ({ s with slot := none, readPos := 0, readPast := false }.dropRef h)

/-- The word a read of DDATA returns (R139, R140). -/
def State.ddataWord (s : State) : Word :=
  match s.slot with
  | none => 0
  | some h =>
    let r := s.record h
    if s.readPos + 2 ≤ r.length then
      wordOf (s.payloadByte r (s.readPos + 1)) (s.payloadByte r s.readPos)
    else if s.readPos + 1 = r.length then wordOf 0 (s.payloadByte r s.readPos)
    else 0

/-- A read of DDATA (R139, R140). -/
def State.readDdata (s : State) : State :=
  let out := s.ddataWord
  match s.slot with
  | none => refuse .refusedState { s with busOut := out }
  | some h =>
    let n := (s.record h).length
    if s.readPos + 2 ≤ n then { s with busOut := out, readPos := s.readPos + 2 }
    else if s.readPos + 1 = n then { s with busOut := out, readPos := n }
    else { s with busOut := out, readPast := true }

/-- Command TAKE. -/
def execTake (arg : Byte) (s : State) : Host.Outcome State Fault Refusal :=
  .next (s.onWrite (·.cmdTake arg))

/-- Command RELEASE. -/
def execRelease (arg : Byte) (s : State) : Host.Outcome State Fault Refusal :=
  .next (s.onWrite (·.cmdRelease arg))

/-- Command DDATA_READ. -/
def execDdataRead (s : State) : Host.Outcome State Fault Refusal :=
  .next (s.onRead (·.readDdata))

end Sys2Proof.Machine
end

