-- ==== Sys2Proof/Machine/Reset.lean ====
section
/-! DEFINITION. Pin reset and SOFT RESET (R36 to R38, R59, R79, R101, R115, R130, R144, R145, R159,
R170, R173, R175). -/

namespace Sys2Proof.Machine

/-- RESET# goes low, which starts pin reset (R180): the lines are quiet, INT# is released, and the window
reads 0 and takes no write (R171). The commands not yet taken and the count of free values are the model's
own and stay (log 16, log 18). -/
def State.resetFalls (s : State) : State :=
  { State.reset with pending := s.pending, draws := s.draws, resetLow := true }

/-- RESET# returns high: every register, queue, counter and lane is at its pin-reset value (R171,
R180). -/
def State.resetRises (s : State) : State :=
  { State.reset with pending := s.pending, draws := s.draws }

/-- Pin reset: RESET# is held low and released; one that is low already is released (R180; log 16). -/
def State.pinReset (s : State) : State := s.resetFalls.resetRises

/-- SOFT RESET: the traffic state as after pin reset, the settings of R175 kept, and CMDST at TAKEN
(R173). The bytes in the cells are not touched (log 5). -/
def State.softReset (s : State) : State :=
  { State.reset with
    pending := s.pending
    draws := s.draws
    busOut := s.busOut
    cmdst := .taken
    cfg := s.cfg
    routes := s.routes
    mem := s.mem
    evEnable := s.evEnable }

/-- SOFT RESET; the argument is not examined (R173). -/
def State.cmdSoftReset (s : State) (_arg : Byte) : State := s.softReset

/-- Command PIN_RESET. -/
def execPinReset (s : State) : Host.Outcome State Fault Refusal :=
  .next s.pinReset

/-- Command SOFT_RESET. -/
def execSoftReset (arg : Byte) (s : State) : Host.Outcome State Fault Refusal :=
  .next (s.onWrite (·.cmdSoftReset arg))

end Sys2Proof.Machine
end

