-- ==== Sys2Proof/Machine/Sending.lean ====
section
/-! DEFINITION. The send unit (chapter 9): OPEN SEND, the write window, POST, ABANDON, and the report
queue. -/

namespace Sys2Proof.Machine

/-- OPEN SEND; the argument is not examined (R147). -/
def State.cmdOpenSend (s : State) (_arg : Byte) : State :=
  if s.composeOpen then refuse .refusedBusy s
  else
    match s.lowestFree with
    | none => refuse .refusedNoRecord s
    | some h =>
      taken
        { s.setRecord h { Record.cleared with arrival := some .ofHost, compose := true } with
          composeOpen := true, composeHandle := h, composeLen := 0, noCells := false
          tooLong := false }

/-- Two payload bytes go to offsets `n` and `n + 1` of the compose record, in a cell of it (R148). -/
def State.storePair (s : State) (c : CellNo) (v : Word) : State :=
  let s' := (s.writeCell c s.composeLen (loByte v)).writeCell c (s.composeLen + 1) (hiByte v)
  { s' with composeLen := s.composeLen + 2 }

/-- An SDATA write at a cell boundary: one cell request with the class in SCTL (R148, R32). -/
def State.newComposeCell (s : State) (v : Word) : State :=
  match s.requestCell .ofHost (sctlClass s.sctl) with
  | none => { s with noCells := true }
  | some (c, s) =>
    let r := s.record s.composeHandle
    (s.setRecord s.composeHandle { r with chain := r.chain ++ [c] }).storePair c v

/-- A write of SDATA (R148 to R150). -/
def State.writeSdata (s : State) (v : Word) : State :=
  if !s.composeOpen then refuse .refusedState s
  else if s.noCells || s.tooLong then s
  else if 512 ≤ s.composeLen then { s with tooLong := true }
  else if s.composeLen % 64 = 0 then s.newComposeCell v
  else
    match (s.record s.composeHandle).chain.getLast? with
    | some c => s.storePair c v
    | none => { s with composeLen := s.composeLen + 2 }

/-- A lane takes posted parcels in SEEK, AGREE and UP (R152). -/
def LaneState.posts : LaneState → Bool
  | .seek | .agree | .up => true
  | .off | .stopping => false

/-- The conditions of POST in order; none if all are met (R152). -/
def State.postRefusal (s : State) : Option CmdResult :=
  if !s.composeOpen then some .refusedState
  else if s.noCells || s.tooLong then some .refusedCompose
  else if s.sdest = 0 ∨ s.sdest.toNat = s.cfg.station.toNat
      ∨ (sctlLane s.sctl .W = false ∧ sctlLane s.sctl .E = false) then some .refusedArg
  else if (sctlLane s.sctl .W && !s.laneW.state.posts)
      || (sctlLane s.sctl .E && !s.laneE.state.posts) then some .refusedState
  else none

/-- The length of a POST: the compose length, less 1 if the odd flag is set and it is above 0 (R153). -/
def postLength (n : Nat) (odd : Bool) : Nat := if odd && decide (0 < n) then n - 1 else n

/-- The record's fields at POST (R153 steps 1 to 3). -/
def State.postedRecord (s : State) (odd : Bool) : Record :=
  { s.record s.composeHandle with
    cls := sctlClass s.sctl, dest := s.sdest, origin := loByte s.cfg.station, hop := sctlHop s.sctl
    tag := s.stag, length := postLength s.composeLen odd
    refs := (sctlLane s.sctl .W).toNat + (sctlLane s.sctl .E).toNat, compose := false }

/-- Append to the send queue of a class on a lane, if it is selected (R128, R153). -/
def State.joinSend (s : State) (l : Lane) (c : TrafficClass) (h : Handle) : State :=
  if sctlLane s.sctl l then s.modLane l fun u => u.setSend c (u.send c ++ [h]) else s

/-- POST; bit 0 of the argument is the odd flag (R152, R153). -/
def State.cmdPost (s : State) (arg : Byte) : State :=
  match s.postRefusal with
  | some r => refuse r s
  | none =>
    let h := s.composeHandle
    let c := sctlClass s.sctl
    let s' := s.setRecord h (s.postedRecord (arg.getLsbD 0))
    let s' := (s'.joinSend .W c h).joinSend .E c h
    taken { s' with composeOpen := false, composeLen := 0 }

/-- ABANDON; the argument is not examined (R154). -/
def State.cmdAbandon (s : State) (_arg : Byte) : State :=
  if s.composeOpen then
    taken
      { s.freeRecord s.composeHandle with
        composeOpen := false, composeLen := 0, noCells := false, tooLong := false }
  else refuse .refusedState s

/-- The word a read of RPTQ returns (R157, R179). -/
def State.rptqWord (s : State) : Word :=
  match s.reports with
  | [] => 0
  | r :: _ => r.word

/-- A read of RPTQ removes and returns the oldest report (R157). -/
def State.readRptq (s : State) : State :=
  { s with busOut := s.rptqWord, reports := s.reports.drop 1 }

/-- Command OPEN_SEND. -/
def execOpenSend (arg : Byte) (s : State) : Host.Outcome State Fault Refusal :=
  .next (s.onWrite (·.cmdOpenSend arg))

/-- Command SDATA_WRITE. -/
def execSdataWrite (value : Word) (s : State) : Host.Outcome State Fault Refusal :=
  .next (s.onWrite (·.writeSdata value))

/-- Command POST. -/
def execPost (arg : Byte) (s : State) : Host.Outcome State Fault Refusal :=
  .next (s.onWrite (·.cmdPost arg))

/-- Command ABANDON. -/
def execAbandon (arg : Byte) (s : State) : Host.Outcome State Fault Refusal :=
  .next (s.onWrite (·.cmdAbandon arg))

/-- Command RPTQ_READ. -/
def execRptqRead (s : State) : Host.Outcome State Fault Refusal :=
  .next (s.onRead (·.readRptq))

end Sys2Proof.Machine
end

