-- ==== Sys2Proof/Machine/Registers.lean ====
section
/-! DEFINITION. The register window unit (chapter 11): checked writes, the registers of the event and
counter unit, the route table, what every register reads, and writes by offset. -/

namespace Sys2Proof.Machine

/-! ### Checked writes (R174) -/

/-- The lane-state lock of a register is met (R174). -/
def State.lockMet (s : State) : RegName → Bool
  | .lcfg l | .cap l | .hstd l | .hall l | .hrel l => (s.lane l).state == .off
  | .station | .htime | .hrenew | .ackdly | .rtmo | .rlim | .buplim | .stoptmo =>
      s.laneW.state == .off && s.laneE.state == .off
  | .cmd | .cmdst | .groups | .lstat _ | .nbr | .xratio | .xres | .lallow | .palarm | .free
  | .intake _ | .localc | .rtidx | .rtent | .ddepth | .fdepth | .dqlen | .dh0 | .dh1 | .dh2 | .dh3
  | .ddata | .shnd | .sdest | .sctl | .stag | .slen | .sdata | .rptq | .rptn | .evpend | .even
  | .csel | .cval | .rlist | .unassigned => true

/-- A station id is held by a valid entry other than the selected one (R72). -/
def State.routeTaken (s : State) (id : Byte) : Bool :=
  (List.finRange 32).any fun i =>
    i != s.rtidx && (match s.routes[i] with
      | some e => e.station == id
      | none => false)

/-- The register's own condition, check 3 of R174: the code on failure. -/
def State.ownCondition (s : State) (r : RegName) (v : Word) : Option CmdResult :=
  match r with
  | .cap l => if (s.lane l).intake ≤ v.toNat then none else some .refusedState
  | .lallow => if s.localCount ≤ v.toNat then none else some .refusedState
  | .rtent => if loByte v != 0 && s.routeTaken (loByte v) then some .refusedArg else none
  | .cmd | .cmdst | .station | .groups | .lcfg _ | .lstat _ | .nbr | .hstd _ | .hall _ | .hrel _
  | .htime | .hrenew | .ackdly | .rtmo | .rlim | .buplim | .stoptmo | .xratio | .xres | .palarm
  | .free | .intake _ | .localc | .rtidx | .ddepth | .fdepth | .dqlen | .dh0 | .dh1 | .dh2 | .dh3
  | .ddata | .shnd | .sdest | .sctl | .stag | .slen | .sdata | .rptq | .rptn | .evpend | .even
  | .csel | .cval | .rlist | .unassigned => none

/-- The checks of a checked write in order: the refusal of the first that fails (R174). -/
def State.writeRefusal (s : State) (r : RegName) (v : Word) : Option CmdResult :=
  if !r.inRange v then some .refusedArg
  else if !s.lockMet r then some .refusedState
  else s.ownCondition r v

/-- Change the settings of a lane. -/
def Settings.modLane (c : Settings) (l : Lane) (f : LaneSettings → LaneSettings) : Settings :=
  c.setLane l (f (c.lane l))

/-- The entry an RTENT value writes: id 0 empties it (R72). -/
def routeEntryOf (v : Word) : Option RouteEntry :=
  if loByte v = 0 then none
  else (routeActionOf v).map fun a => { station := loByte v, action := a }

/-- The value of a taken write replaces the register's (R174). A register that is not one of the
checked ones is not changed here. -/
def State.setRegister (s : State) (r : RegName) (v : Word) : State :=
  match r with
  | .station => { s with cfg := { s.cfg with station := v } }
  | .groups => { s with cfg := { s.cfg with groups := v } }
  | .lcfg l => { s with cfg := s.cfg.modLane l fun c => { c with lcfg := v } }
  | .cap l => { s with cfg := s.cfg.modLane l fun c => { c with cap := v } }
  | .hstd l => { s with cfg := s.cfg.modLane l fun c => { c with hstd := v } }
  | .hall l => { s with cfg := s.cfg.modLane l fun c => { c with hall := v } }
  | .hrel l => { s with cfg := s.cfg.modLane l fun c => { c with hrel := v } }
  | .htime => { s with cfg := { s.cfg with htime := v } }
  | .hrenew => { s with cfg := { s.cfg with hrenew := v } }
  | .ackdly => { s with cfg := { s.cfg with ackdly := v } }
  | .rtmo => { s with cfg := { s.cfg with rtmo := v } }
  | .rlim => { s with cfg := { s.cfg with rlim := v } }
  | .buplim => { s with cfg := { s.cfg with buplim := v } }
  | .stoptmo => { s with cfg := { s.cfg with stoptmo := v } }
  | .xratio => { s with cfg := { s.cfg with xratio := v } }
  | .xres => { s with cfg := { s.cfg with xres := v } }
  | .lallow => { s with cfg := { s.cfg with lallow := v } }
  | .palarm => { s with cfg := { s.cfg with palarm := v } }
  | .ddepth => { s with cfg := { s.cfg with ddepth := v } }
  | .fdepth => { s with cfg := { s.cfg with fdepth := v } }
  | .rtidx => { s with rtidx := Fin.ofNat 32 v.toNat }
  | .rtent => { s with routes := s.routes.set s.rtidx (routeEntryOf v) }
  | .sctl => { s with sctl := v }
  | .even => { s with evEnable := v.setWidth 13 }
  | .csel => { s with csel := Fin.ofNat 48 v.toNat }
  | .cmd | .cmdst | .lstat _ | .nbr | .free | .intake _ | .localc | .dqlen | .dh0 | .dh1 | .dh2
  | .dh3 | .ddata | .shnd | .sdest | .stag | .slen | .sdata | .rptq | .rptn | .evpend | .cval
  | .rlist | .unassigned => s

/-- A write to a checked register (R174). -/
def State.writeChecked (s : State) (r : RegName) (v : Word) : State :=
  match s.writeRefusal r v with
  | some code => refuse code s
  | none => taken (s.setRegister r v)

/-- A write of EVPEND clears the flags whose bits are 1; bits 15:13 are ignored (R162). -/
def State.clearEvents (s : State) (v : Word) : State :=
  { s with evPend := s.evPend &&& ~~~(v.setWidth 13) }

/-- A read of CVAL returns the selected counter and sets it to 0 (R168). -/
def State.readCval (s : State) : State :=
  { s with busOut := s.counters[s.csel], counters := s.counters.set s.csel 0 }

/-- ROUTE CLEAR; the argument is not examined (R73). -/
def State.cmdRouteClear (s : State) (_arg : Byte) : State :=
  taken { s with routes := Vector.replicate 32 none }

/-! ### Writes by code and by offset (R171 to R173) -/

/-- A write of CMD, by its code and argument (R172, R173). -/
def State.writeCmd (s : State) (code arg : Byte) : State :=
  match code.toNat with
  | 0x01 => s.cmdLaneEnable arg
  | 0x02 => s.cmdLaneStop arg
  | 0x03 => s.cmdLaneAbort arg
  | 0x10 => s.cmdTake arg
  | 0x11 => s.cmdRelease arg
  | 0x20 => s.cmdOpenSend arg
  | 0x21 => s.cmdPost arg
  | 0x22 => s.cmdAbandon arg
  | 0x30 => s.cmdRouteClear arg
  | 0x3F => s.cmdSoftReset arg
  | _ => refuse .unknown s

/-- A write to a register of the window (R171): a command, a data-window write, the clear of EVPEND, a
checked write, the unchecked SDEST and STAG (R151), or ignored. -/
def State.writeReg (s : State) (r : RegName) (v : Word) : State :=
  match r with
  | .cmd => s.writeCmd (loByte v) (hiByte v)
  | .sdata => s.writeSdata v
  | .evpend => s.clearEvents v
  | .sdest => { s with sdest := loByte v }
  | .stag => { s with stag := v }
  | .station | .groups | .lcfg _ | .cap _ | .hstd _ | .hall _ | .hrel _ | .htime | .hrenew | .ackdly
  | .rtmo | .rlim | .buplim | .stoptmo | .xratio | .xres | .lallow | .palarm | .rtidx | .rtent
  | .ddepth | .fdepth | .sctl | .even | .csel => s.writeChecked r v
  | .cmdst | .lstat _ | .nbr | .free | .intake _ | .localc | .dqlen | .dh0 | .dh1 | .dh2 | .dh3
  | .ddata | .shnd | .slen | .rptq | .rptn | .cval | .rlist | .unassigned => s

/-! ### Reads (R171, R175, R178) -/

/-- LSTAT of a lane (R57, R178). -/
def LaneUnit.lstat (u : LaneUnit) : Word :=
  u.state.code ||| (rateCode u.agreed <<< 4) ||| (flagWord u.holdUse <<< 6)
    ||| (flagWord u.held <<< 8) ||| (flagWord (u.held && u.partnerScope == .standard) <<< 9)
    ||| (u.lastFault.code <<< 12)

/-- The station id of a neighbour record, or 0 (R57). -/
def LaneUnit.nbr (u : LaneUnit) : Byte := (u.neighbour.map Greet.station).getD 0

/-- The lane bit of a record's arrival (R178). -/
def arrivalBit : Option Arrival → Word
  | some (.fromLane l) => laneBit l
  | some .ofHost => 0
  | none => 0

/-- DH0 while a record is open (R138, R178). -/
def State.dh0 (s : State) (h : Handle) : Word :=
  let r := s.record h
  0x8000 ||| (flagWord s.readPast <<< 14) ||| (flagWord r.cls.bit <<< 13)
    ||| (arrivalBit r.arrival <<< 12) ||| (r.hop.setWidth 16 <<< 8) ||| BitVec.ofNat 16 h.val

/-- A field of the head view: 0 while the slot is empty (R138). -/
def State.headView (s : State) (f : Handle → Word) : Word :=
  match s.slot with
  | some h => f h
  | none => 0

/-- SHND (R146, R178). -/
def State.shnd (s : State) : Word :=
  (flagWord s.composeOpen <<< 15) ||| (flagWord s.tooLong <<< 9) ||| (flagWord s.noCells <<< 8)
    ||| BitVec.ofNat 16 s.composeHandle.val

/-- The word a register shows (R171, R175): write-only and unassigned registers show 0. -/
def State.shows (s : State) (r : RegName) : Word :=
  match r with
  | .cmd | .sdata | .unassigned => 0
  | .cmdst => s.cmdst.code
  | .station => s.cfg.station
  | .groups => s.cfg.groups
  | .lcfg l => (s.cfg.lane l).lcfg
  | .lstat l => (s.lane l).lstat
  | .nbr => wordOf s.laneE.nbr s.laneW.nbr
  | .cap l => (s.cfg.lane l).cap
  | .hstd l => (s.cfg.lane l).hstd
  | .hall l => (s.cfg.lane l).hall
  | .hrel l => (s.cfg.lane l).hrel
  | .htime => s.cfg.htime
  | .hrenew => s.cfg.hrenew
  | .ackdly => s.cfg.ackdly
  | .rtmo => s.cfg.rtmo
  | .rlim => s.cfg.rlim
  | .buplim => s.cfg.buplim
  | .stoptmo => s.cfg.stoptmo
  | .xratio => s.cfg.xratio
  | .xres => s.cfg.xres
  | .lallow => s.cfg.lallow
  | .palarm => s.cfg.palarm
  | .free => BitVec.ofNat 16 s.freeCount
  | .intake l => BitVec.ofNat 16 (s.lane l).intake
  | .localc => BitVec.ofNat 16 s.localCount
  | .rtidx => BitVec.ofNat 16 s.rtidx.val
  | .rtent => routeWord s.routes[s.rtidx]
  | .ddepth => s.cfg.ddepth
  | .fdepth => s.cfg.fdepth
  | .dqlen => wordOf (BitVec.ofNat 8 s.dqS.length) (BitVec.ofNat 8 s.dqX.length)
  | .dh0 => s.headView s.dh0
  | .dh1 => s.headView fun h => wordOf (s.record h).origin (s.record h).dest
  | .dh2 => s.headView fun h => (s.record h).tag
  | .dh3 => s.headView fun h => BitVec.ofNat 16 (s.record h).length
  | .ddata => s.ddataWord
  | .shnd => s.shnd
  | .sdest => s.sdest.setWidth 16
  | .sctl => s.sctl
  | .stag => s.stag
  | .slen => BitVec.ofNat 16 s.composeLen
  | .rptq => s.rptqWord
  | .rptn => BitVec.ofNat 16 s.reports.length
  | .evpend => s.evPend.setWidth 16
  | .even => s.evEnable.setWidth 16
  | .csel => BitVec.ofNat 16 s.csel.val
  | .cval => s.counters[s.csel]
  | .rlist =>
      wordOf (BitVec.ofNat 8 s.laneE.replay.length) (BitVec.ofNat 8 s.laneW.replay.length)

/-- The word a read of a register returns (R171): what it shows, or 0 while RESET# is low. -/
def State.readRegister (s : State) (r : RegName) : Word := if s.resetLow then 0 else s.shows r

/-! ### Commands -/

/-- Command ROUTE_CLEAR. -/
def execRouteClear (arg : Byte) (s : State) : Host.Outcome State Fault Refusal :=
  .next (s.onWrite (·.cmdRouteClear arg))

/-- Command UNKNOWN_COMMAND. A code that names a command after all carries that command out (log 20). -/
def execUnknownCommand (code arg : Byte) (s : State) : Host.Outcome State Fault Refusal :=
  .next (s.onWrite (·.writeCmd code arg))

/-- Command CVAL_READ. -/
def execCvalRead (s : State) : Host.Outcome State Fault Refusal :=
  .next (s.onRead (·.readCval))

/-- Command CSEL_WRITE. -/
def execCselWrite (value : Word) (s : State) : Host.Outcome State Fault Refusal :=
  .next (s.onWrite (·.writeChecked .csel value))

/-- Command EVPEND_WRITE. -/
def execEvpendWrite (value : Word) (s : State) : Host.Outcome State Fault Refusal :=
  .next (s.onWrite (·.clearEvents value))

/-- Command EVEN_WRITE. -/
def execEvenWrite (value : Word) (s : State) : Host.Outcome State Fault Refusal :=
  .next (s.onWrite (·.writeChecked .even value))

/-- Command RTENT_WRITE. -/
def execRtentWrite (value : Word) (s : State) : Host.Outcome State Fault Refusal :=
  .next (s.onWrite (·.writeChecked .rtent value))

/-- Command REGISTER_WRITE. An offset whose register has a row of its own acts as that row (log 20). -/
def execRegisterWrite (offset : Byte) (value : Word) (s : State) :
    Host.Outcome State Fault Refusal :=
  .next (s.onWrite (·.writeReg (RegName.ofOffset offset) value))

end Sys2Proof.Machine
end

