-- ==== Sys2Proof/Machine/Transmit.lean ====
section
/-! DEFINITION. The transmitter (chapter 7): what a unit looks like on the line (R1, R7), the arbiter's
choice (R119 to R124), first transmissions and resends (R91, R97, R125), and the end of a unit (R92,
R126). -/

namespace Sys2Proof.Machine

/-! ### Units on the line (R1, R7) -/

/-- The hop a transmitter sends: one less than received for a forwarded parcel, as composed for a
local one (R7, R125). -/
def Record.sentHop (r : Record) : BitVec 4 :=
  match r.arrival with
  | some (.fromLane _) => r.hop - 1
  | some .ofHost => r.hop
  | none => r.hop

/-- The header built for a transmission with a seq (R7). -/
def Record.header (r : Record) (q : Seq) : Header :=
  { kind := 1, cls := r.cls, seq := q, dest := r.dest, origin := r.origin, tag := r.tag,
    hop := r.sentHop, length := r.length }

/-- The symbols of a parcel: SOP, header, payload, check word high byte first, EOP (R1, R7, R8). -/
def State.parcelSymbols (s : State) (h : Handle) (q : Seq) : List Symbol :=
  let r := s.record h
  let bytes := (r.header q).encode ++ s.payload r
  let c := crc16 bytes
  [.sop] ++ (bytes ++ [hiByte c, loByte c]).map .data ++ [.eop]

/-- The symbols of a link word: SOW and its five bytes (R1, R10). -/
def LinkWord.symbols (w : LinkWord) : List Symbol := [.sow] ++ w.bytes.map .data

/-- Symbols that go out at a rate, fixed at the start of their unit (R5, R46, R56). -/
def atRate (r : Rate) (xs : List Symbol) : List LineSymbol := xs.map fun x => ⟨x, r⟩

/-- What the outgoing line shows (R1): quiet in OFF once the last unit is out, the next symbol of the
unit on the line, or IDL. -/
def LaneUnit.lineNow (u : LaneUnit) : LineLevel :=
  match u.txq with
  | x :: _ => .symbol x.symbol
  | [] => if u.state = .off then .quiet else .symbol .idl

/-- A unit starts on the line at the lane's rate (R1, R5, R118), behind what a teardown has left there
(log 9). With nothing left there, the line is at the end of its IDL symbol: the command
START_OPPORTUNITY stands for that moment, and what had not gone out of the IDL symbol is dropped (the
model's choice, log 28). -/
def LaneUnit.startUnit (x : TxUnit) (symbols : List Symbol) (u : LaneUnit) : LaneUnit :=
  { u with
    unit := x, txq := u.txq ++ atRate u.rate symbols
    symGone := if u.txq.isEmpty then 0 else u.symGone }

/-! ### The arbiter's choice (R119 to R124) -/

/-- What the arbiter chooses at a start opportunity (R119). -/
inductive Choice where
  | word (w : LinkWord)
  | resend (q : Seq)
  | first (c : TrafficClass) (from_ : Turn)
  | nothing
deriving DecidableEq, Repr

/-- The GREET a lane builds at its start (R43, R15). -/
def greetNow (c : Settings) (m : LaneSettings) (st : LaneState) : Greet :=
  { ack := st == .agree, hold := m.holdSupport, station := loByte c.station, rates := m.rateMask }

/-- The pending link word that goes first: GREET in SEEK and AGREE; HOLD, REPLAY, ACK in that order in
UP and STOPPING (R10, R120; log 23). -/
def LaneUnit.wordChoice (c : Settings) (m : LaneSettings) (u : LaneUnit) : Option LinkWord :=
  if u.state.greets then
    if u.pendGreet then some (.greet (greetNow c m u.state)) else none
  else if u.state.carries then
    match u.pendHold, u.pendReplay, u.pendAck with
    | some h, _, _ => some (.hold h.scope h.time)
    | none, some q, _ => some (.replay q)
    | none, none, some q => some (.ack q)
    | none, none, none => none
  else none

/-- A class is barred by the partner hold (R113). -/
def LaneUnit.barred (u : LaneUnit) (c : TrafficClass) : Bool :=
  u.held && (u.partnerScope == .all || c == .standard)

/-- The resend that may start: the entry at the replay pointer, if the hold does not bar its class, in
UP or STOPPING (R121). -/
def LaneUnit.resendChoice (u : LaneUnit) : Option Seq :=
  if u.state.carries then
    match u.pointer with
    | some q =>
      match u.entry? q with
      | some e => if u.barred e.cls then none else some q
      | none => none
    | none => none
  else none

/-- A head of a class is waiting (R123). -/
def LaneUnit.waits (u : LaneUnit) (c : TrafficClass) : Bool :=
  !(u.fwd c).isEmpty || !(u.send c).isEmpty

/-- The turn of a class (R124). -/
def LaneUnit.turn (u : LaneUnit) : TrafficClass → Turn
  | .express => u.turnX
  | .standard => u.turnS

/-- The queue whose head is chosen within a class (R124). -/
def LaneUnit.queueChoice (u : LaneUnit) (c : TrafficClass) : Turn :=
  if (u.send c).isEmpty then .forward
  else if (u.fwd c).isEmpty then .send
  else match u.turn c with
    | .send => .forward
    | .forward => .send

/-- A class has a head that may start (R122). -/
def LaneUnit.mayStart (u : LaneUnit) (c : TrafficClass) : Bool := u.waits c && !u.barred c

/-- The express streak calls for standard (R123). -/
def LaneUnit.standardFirst (c : Settings) (u : LaneUnit) : Bool :=
  decide (0 < c.xratio.toNat) && decide (c.xratio.toNat ≤ u.streak) && u.mayStart .standard

/-- The class of the first transmission that may start, if any (R122, R123). -/
def LaneUnit.classChoice (c : Settings) (u : LaneUnit) : Option TrafficClass :=
  if u.state ≠ .up ∨ 32 ≤ u.replay.length then none
  else if u.standardFirst c then some .standard
  else if u.mayStart .express then some .express
  else if u.mayStart .standard then some .standard
  else none

/-- The arbiter's choice, in the order of R119. -/
def LaneUnit.arbiter (c : Settings) (m : LaneSettings) (u : LaneUnit) : Choice :=
  match u.wordChoice c m with
  | some w => .word w
  | none =>
    match u.resendChoice with
    | some q => .resend q
    | none =>
      match u.classChoice c with
      | some k => .first k (u.queueChoice k)
      | none => .nothing

/-! ### Starts -/

/-- The renew timer is loaded when a HOLD with a time above 0 starts while holding (R107). -/
def LaneUnit.holdStarted (c : Settings) (t : BitVec 12) (u : LaneUnit) : LaneUnit :=
  if t ≠ 0 ∧ u.ownHold ≠ .clear then
    { u with renewTimer := some (.load (c.htime.toNat - c.hrenew.toNat)) }
  else u

/-- A pending link word starts and stops being pending (R88, R106, R120). -/
def State.startWord (s : State) (l : Lane) (w : LinkWord) : State :=
  let s :=
    match w with
    | .greet _ => s.modLane l fun u => { u with pendGreet := false }
    | .hold _ t =>
      (bump (.ofLane l .holdTx) s).modLane l fun u =>
        LaneUnit.holdStarted s.cfg t { u with pendHold := none }
    | .replay _ =>
      (bump (.ofLane l .replayTx) s).modLane l fun u => { u with pendReplay := none }
    | .ack _ => s.modLane l fun u => { u with pendAck := none }
  s.modLane l (LaneUnit.startUnit (.word w) w.symbols)

/-- The seq of the next newer entry, if there is one (R97). -/
def nextNewer (q : Seq) (es : List ReplayEntry) : Option Seq :=
  ((es.dropWhile fun e => e.seq != q).drop 1).head?.map (·.seq)

/-- An entry's attempts rise by 1 and its on-wire mark is set (R97). -/
def markResent (q : Seq) (es : List ReplayEntry) : List ReplayEntry :=
  es.map fun e => if e.seq = q then { e with attempts := e.attempts + 1, onWire := true } else e

/-- A resend is chosen (R97): it starts, or with the attempts at RLIM it is a replay failure (R98). -/
def State.resend (s : State) (l : Lane) (q : Seq) : State :=
  match (s.lane l).entry? q with
  | none => s
  | some e =>
    if e.attempts = s.cfg.rlim.toNat then s.failLane l
    else
      let symbols := s.parcelSymbols e.handle q
      (bump (.ofLane l .txResends) s).modLane l fun u =>
        LaneUnit.startUnit (.parcel q) symbols
          { u with replay := markResent q u.replay, pointer := nextNewer q u.replay }

/-- The turn and the streak after a first transmission (R123, R124). -/
def LaneUnit.served (k : TrafficClass) (t : Turn) (u : LaneUnit) : LaneUnit :=
  match k with
  | .express => { u with turnX := t, streak := min (u.streak + 1) 15 }
  | .standard => { u with turnS := t, streak := 0 }

/-- The handle at the head of a queue of a class. -/
def LaneUnit.headOf (u : LaneUnit) (k : TrafficClass) : Turn → Option Handle
  | .forward => (u.fwd k).head?
  | .send => (u.send k).head?

/-- The head entry is removed from its queue (R125). -/
def LaneUnit.popHead (k : TrafficClass) (t : Turn) (u : LaneUnit) : LaneUnit :=
  match t with
  | .forward => u.setFwd k ((u.fwd k).drop 1)
  | .send => u.setSend k ((u.send k).drop 1)

/-- A new newest entry joins the replay list (R91), and the timer is started if it was stopped. -/
def LaneUnit.joinReplay (c : Settings) (h : Handle) (k : TrafficClass) (u : LaneUnit) : LaneUnit :=
  let u' :=
    { u with
      nextSeq := u.nextSeq + 1
      replay := u.replay ++
        [{ seq := u.nextSeq, handle := h, cls := k, attempts := 0, onWire := true, acked := false }] }
  if u.replayTimer = .stopped then u'.loadReplayTimer c else u'

/-- A first transmission (R91, R125). -/
def State.firstTransmission (s : State) (l : Lane) (k : TrafficClass) (t : Turn) : State :=
  match (s.lane l).headOf k t with
  | none => s
  | some h =>
    let q := (s.lane l).nextSeq
    let symbols := s.parcelSymbols h q
    (bump (.ofLane l .txParcels) s).modLane l fun u =>
      (((u.popHead k t).joinReplay s.cfg h k).served k t).startUnit (.parcel q) symbols

/-- A start opportunity exists while the line is driven and no unit is in progress (R118). -/
def LaneUnit.mayTakeOpportunity (u : LaneUnit) : Bool := u.state != .off && u.unit == .none

/-- A start opportunity is taken (R118, R119). -/
def State.opportunity (s : State) (l : Lane) : State :=
  if (s.lane l).mayTakeOpportunity then
    match (s.lane l).arbiter s.cfg (s.cfg.lane l) with
    | .word w => s.startWord l w
    | .resend q => s.resend l q
    | .first k t => s.firstTransmission l k t
    | .nothing => s
  else s

/-! ### The end of a unit (R92, R126) -/

/-- The line is free again. The command UNIT_END stands for the moment at which the last symbol of the
unit is out: symbols that the queue had not let go out by then are dropped, so that no EOP is shown (the
model's choice, log 28). -/
def LaneUnit.freeLine (u : LaneUnit) : LaneUnit := { u with unit := .none, txq := [], symGone := 0 }

/-- The transmission of a data parcel ends (R92). -/
def State.endParcel (s : State) (l : Lane) (q : Seq) : State :=
  let acked := ((s.lane l).entry? q).any (·.acked)
  let s := s.modLane l fun u => { u with replay := clearOnWire q u.replay }
  if acked then
    let s := s.removeAcked l
    let s := s.modLane l fun u =>
      if u.replay.isEmpty then { u with replayTimer := .stopped } else u
    s.drainCheck l
  else s

/-- The end of a link word is reported: a GREET with the ack flag 1 is counted in the sent count if
the lane is still in AGREE (R43, R120). -/
def State.endWord (s : State) (l : Lane) (w : LinkWord) : State :=
  match w with
  | .greet g =>
    if g.ack ∧ (s.lane l).state = .agree then
      (s.modLane l fun u => { u with sent := min (u.sent + 1) 255 }).tryEnterUp l
    else s
  | .ack _ => s
  | .replay _ => s
  | .hold _ _ => s

/-- A unit ends (R126): its own end and a start opportunity. A unit that starts there starts at the
lane's rate, which is the change that R46 has wait for this end. -/
def State.endUnit (s : State) (l : Lane) : State :=
  let free := s.modLane l LaneUnit.freeLine
  match (s.lane l).unit with
  | .none => s
  | .parcel q => (free.endParcel l q).opportunity l
  | .word w => (free.endWord l w).opportunity l

/-- Command START_OPPORTUNITY. -/
def execStartOpportunity (l : Lane) (s : State) : Host.Outcome State Fault Refusal :=
  .next (s.opportunity l)

/-- Command UNIT_END. -/
def execUnitEnd (l : Lane) (s : State) : Host.Outcome State Fault Refusal :=
  .next (s.endUnit l)

end Sys2Proof.Machine
end

