-- ==== Sys2Proof/Machine/Dispatch.lean ====
section
/-! DEFINITION. One arm per command: the meaning it has. -/

namespace Sys2Proof.Machine

def exec (i : Instr) (s : State) : Host.Outcome State Fault Refusal :=
  match i with
  | .pinReset => Sys2Proof.Machine.execPinReset s
  | .laneEnable arg => Sys2Proof.Machine.execLaneEnable arg s
  | .laneStop arg => Sys2Proof.Machine.execLaneStop arg s
  | .laneAbort arg => Sys2Proof.Machine.execLaneAbort arg s
  | .take arg => Sys2Proof.Machine.execTake arg s
  | .release arg => Sys2Proof.Machine.execRelease arg s
  | .openSend arg => Sys2Proof.Machine.execOpenSend arg s
  | .post arg => Sys2Proof.Machine.execPost arg s
  | .abandon arg => Sys2Proof.Machine.execAbandon arg s
  | .routeClear arg => Sys2Proof.Machine.execRouteClear arg s
  | .softReset arg => Sys2Proof.Machine.execSoftReset arg s
  | .unknownCommand code arg => Sys2Proof.Machine.execUnknownCommand code arg s
  | .ddataRead => Sys2Proof.Machine.execDdataRead s
  | .sdataWrite value => Sys2Proof.Machine.execSdataWrite value s
  | .rptqRead => Sys2Proof.Machine.execRptqRead s
  | .cvalRead => Sys2Proof.Machine.execCvalRead s
  | .cselWrite value => Sys2Proof.Machine.execCselWrite value s
  | .evpendWrite value => Sys2Proof.Machine.execEvpendWrite value s
  | .evenWrite value => Sys2Proof.Machine.execEvenWrite value s
  | .rtentWrite value => Sys2Proof.Machine.execRtentWrite value s
  | .registerWrite offset value => Sys2Proof.Machine.execRegisterWrite offset value s
  | .sopReceived l => Sys2Proof.Machine.execSopReceived l s
  | .sowReceived l => Sys2Proof.Machine.execSowReceived l s
  | .idlReceived l => Sys2Proof.Machine.execIdlReceived l s
  | .dataByteReceived l b => Sys2Proof.Machine.execDataByteReceived l b s
  | .eopReceived l => Sys2Proof.Machine.execEopReceived l s
  | .abtReceived l => Sys2Proof.Machine.execAbtReceived l s
  | .ackReceived l seq => Sys2Proof.Machine.execAckReceived l seq s
  | .replayReceived l seq => Sys2Proof.Machine.execReplayReceived l seq s
  | .holdReceived l scope time => Sys2Proof.Machine.execHoldReceived l scope time s
  | .greetReceived l g => Sys2Proof.Machine.execGreetReceived l g s
  | .lossOfSignal l => Sys2Proof.Machine.execLossOfSignal l s
  | .startGraceEnd l => Sys2Proof.Machine.execStartGraceEnd l s
  | .greetIntervalExpiry l => Sys2Proof.Machine.execGreetIntervalExpiry l s
  | .bringUpTimerExpiry l => Sys2Proof.Machine.execBringUpTimerExpiry l s
  | .stopTimerExpiry l => Sys2Proof.Machine.execStopTimerExpiry l s
  | .ackDelayExpiry l => Sys2Proof.Machine.execAckDelayExpiry l s
  | .replayTimerExpiry l => Sys2Proof.Machine.execReplayTimerExpiry l s
  | .renewTimerExpiry l => Sys2Proof.Machine.execRenewTimerExpiry l s
  | .partnerHoldExpiry l => Sys2Proof.Machine.execPartnerHoldExpiry l s
  | .startOpportunity l => Sys2Proof.Machine.execStartOpportunity l s
  | .unitEnd l => Sys2Proof.Machine.execUnitEnd l s
  | .symbolAtOtherRate l => Sys2Proof.Machine.execSymbolAtOtherRate l s

end Sys2Proof.Machine
end

