-- ==== Sys2Proof/Config.lean ====
section
/-! DEFINITION. The one free value of the model: which of the matters that fall due in the same
tick is taken first. The manual says "either may be taken first" (R35, R58, R77, R99, R114, R131)
and gives no order (log 2). -/

namespace Sys2Proof

/-- Free value (log 2): the k-th pick among the matters that fall due together. It has no body, so a
claim about a tick holds for every order. -/
opaque Config.freePick : Nat → Nat

end Sys2Proof
end

