-- ==== Sys2Proof/Machine/Tick.lean ====
section
/-! DEFINITION. What time does (log 1): one tick is one bit time at 16 Mbit/s. In it the outgoing lines
move on (R1), the lane timers count beats (R5), and what falls due happens, each matter whole, in an
order that a free value picks (log 2). -/

namespace Sys2Proof.Machine

/-! ### Beats and symbols (R1, R5) -/

/-- What passes of a bit time in one tick, in quarters (log 1). -/
def Rate.quarters : Rate → Nat
  | .r4 => 1
  | .r8 => 2
  | .r16 => 4

/-- A timer counts some quarters of a bit time: at each 256, a beat (R5). -/
def Countdown.count (q : Nat) (t : Countdown) : Countdown :=
  if t.gone + q < 256 then { t with gone := t.gone + q }
  else { left := t.left - 1, gone := t.gone + q - 256 }

/-- The partner hold timer counts likewise (R112), but for the end of its last beat: there the hold ends
in an event of its own (`State.expirePartner`), and stands until that event is taken (R114). -/
def Countdown.countHold (q : Nat) (t : Countdown) : Countdown :=
  if t.left = 0 then t
  else if t.left = 1 ∧ 256 ≤ t.gone + q then { t with gone := 256 }
  else t.count q

/-- A replay timer counts while it runs; a paused one keeps its beats (R96), the one under way as far as
it has gone (log 31). -/
def ReplayTimer.count (q : Nat) : ReplayTimer → ReplayTimer
  | .running t => .running (t.count q)
  | .stopped => .stopped
  | .paused t => .paused t

/-- One tick of the timers of a lane, which count beats of its rate (R5); the quiet interval counts while
the receiver watches the line (R4), so not in the start grace (log 30). -/
def LaneUnit.ageTimers (u : LaneUnit) : LaneUnit :=
  if u.state = .off then u
  else
    let q := u.rate.quarters
    { u with
      greetTimer := u.greetTimer.map (Countdown.count q)
      bringTimer := u.bringTimer.map (Countdown.count q)
      stopTimer := u.stopTimer.map (Countdown.count q)
      grace := u.grace.map (Countdown.count q)
      ackTimer := u.ackTimer.map (Countdown.count q)
      replayTimer := u.replayTimer.count q
      renewTimer := u.renewTimer.map (Countdown.count q)
      partnerTimer := u.partnerTimer.countHold q
      quiet := if u.watches then u.quiet.count q else u.quiet }

/-- The rate at which the symbol now on the line goes out: its own, or for IDL the lane's. An IDL symbol
on the line at a change of rate keeps what has gone of its 10 bit times and takes the rest at the new
rate (the model's choice, log 29). -/
def LaneUnit.lineRate (u : LaneUnit) : Rate :=
  match u.txq with
  | x :: _ => x.rate
  | [] => u.rate

/-- One tick of the outgoing line: a symbol is 10 bit times, 40 quarters (R1). -/
def LaneUnit.ageLine (u : LaneUnit) : LaneUnit :=
  if u.lineNow = .quiet then u
  else if u.symGone + u.lineRate.quarters < 40 then
    { u with symGone := u.symGone + u.lineRate.quarters }
  else { u with txq := u.txq.drop 1, symGone := 0 }

/-- One tick of a lane. -/
def LaneUnit.age (u : LaneUnit) : LaneUnit := u.ageLine.ageTimers

/-! ### What falls due -/

/-- The matters that time brings about on a lane. -/
inductive TimedKind where
  | unitEnd
  | opportunity
  | lossOfSignal
  | graceEnd
  | greetInterval
  | bringUp
  | stop
  | ackDelay
  | replay
  | renew
  | partnerEnd
deriving DecidableEq, Repr

/-- A replay timer that runs has counted down to 0 (R96). -/
def ReplayTimer.ranOut : ReplayTimer → Bool
  | .running t => t.left == 0
  | .stopped => false
  | .paused _ => false

/-- The line is at the end of an IDL symbol, or free, with no unit in progress: a start opportunity can be
taken here (R118). -/
def LaneUnit.atIdlEnd (u : LaneUnit) : Bool :=
  u.mayTakeOpportunity && u.txq.isEmpty && u.symGone == 0

/-- A matter due now (a timer that has counted down to 0; the last symbol of a unit out; the end of an
IDL symbol with something to start, R118 and log 12; four quiet beats, R4; the end of the last beat of a
partner hold, R112). -/
def State.isDue (s : State) (l : Lane) (k : TimedKind) : Bool :=
  let u := s.lane l
  match k with
  | .unitEnd => u.unit != .none && u.txq.isEmpty
  | .opportunity => u.atIdlEnd && u.arbiter s.cfg (s.cfg.lane l) != .nothing
  | .lossOfSignal => u.watches && u.quiet.left == 0
  | .graceEnd => u.grace.any (·.left == 0)
  | .greetInterval => u.greetTimer.any (·.left == 0)
  | .bringUp => u.bringTimer.any (·.left == 0)
  | .stop => u.stopTimer.any (·.left == 0)
  | .ackDelay => u.ackTimer.any (·.left == 0)
  | .replay => u.replayTimer.ranOut
  | .renew => u.renewTimer.any (·.left == 0)
  | .partnerEnd => u.partnerTimer.left == 1 && decide (256 ≤ u.partnerTimer.gone)

/-- A timed matter happens. -/
def State.happen (s : State) (l : Lane) (k : TimedKind) : State :=
  match k with
  | .unitEnd => s.endUnit l
  | .opportunity => s.opportunity l
  | .lossOfSignal => s.signalLoss l
  | .graceEnd => s.endGrace l
  | .greetInterval => s.expireGreetInterval l
  | .bringUp => s.expireBringUp l
  | .stop => s.expireStop l
  | .ackDelay => s.expireAckDelay l
  | .replay => s.expireReplayTimer l
  | .renew => s.expireRenewTimer l
  | .partnerEnd => s.expirePartner l

/-- A matter happens if it is due at its turn: one taken before it in the same tick can have undone it
(R58, R99, R108, R114: "the expiry does not happen"), or given an opportunity something to start (R114:
"the opportunity may start a held-class parcel"). -/
def State.happenIfDue (s : State) (x : Lane × TimedKind) : State :=
  if s.isDue x.1 x.2 then s.happen x.1 x.2 else s

/-- Every matter of one lane. -/
def timedKinds : List TimedKind :=
  [.unitEnd, .opportunity, .lossOfSignal, .graceEnd, .greetInterval, .bringUp, .stop, .ackDelay,
   .replay, .renew, .partnerEnd]

/-- Every matter of both lanes. -/
def timedMatters : List (Lane × TimedKind) :=
  [Lane.W, Lane.E].flatMap fun l => timedKinds.map fun k => (l, k)

/-- A matter that is due now, or a start opportunity that a matter taken before it can make due: the end
of an IDL symbol is reached in this tick (R114, R118). -/
def State.canHappen (s : State) (x : Lane × TimedKind) : Bool :=
  s.isDue x.1 x.2 || (x.2 == .opportunity && (s.lane x.1).atIdlEnd)

/-- The matters that come together in this tick, of both lanes: when one is due, it and all others that
can happen beside it. -/
def State.dueNow (s : State) : List (Lane × TimedKind) :=
  if timedMatters.any fun x => s.isDue x.1 x.2 then timedMatters.filter s.canHappen else []

/-- Arrange a list by free picks, from the k-th pick on (log 2); a list of one needs no pick. -/
def arrange {α : Type} : Nat → Nat → List α → List α
  | 0, _, xs => xs
  | n + 1, k, xs =>
    if xs.length ≤ 1 then xs
    else
      let i := Config.freePick k % xs.length
      xs[i]?.toList ++ arrange n (k + 1) (xs.eraseIdx i)

/-- One tick of the part with nothing commanded. -/
def tick (s : State) : State :=
  let s := (s.modLane .W LaneUnit.age).modLane .E LaneUnit.age
  let due := s.dueNow
  let s := { s with draws := s.draws + due.length }
  (arrange due.length (s.draws - due.length) due).foldl State.happenIfDue s

end Sys2Proof.Machine
end

