-- ==== Sys2Proof/Safety.lean ====
section
/-! DEFINITION. The terms claims are stated in: how an access is answered, what a command leaves alone,
and the invariants that say what a sound state of the part is. -/

namespace Sys2Proof.Machine

/-! ### Answers and frames -/

/-- A refused access (R161, R172): its code stands in CMDST, CMD_REFUSED (bit 12) is pending, and
nothing else changes. -/
def State.refusedAs (s : State) (r : CmdResult) : State :=
  { s with cmdst := r, evPend := s.evPend ||| 0x1000#13 }

/-- The argument byte that names a lane (R173). -/
def laneArg : Lane → Byte
  | .W => 0
  | .E => 1

/-- Every event cause (R160). -/
def causes : List Cause :=
  [.dlvX, .dlvS, .rpt, .rptOvf, .lane .W, .lane .E, .bring .W, .bring .E, .held .W, .held .E,
   .poolLow, .countHalf, .cmdRefused]

/-- A cause is pending (R160). -/
def State.isPending (s : State) (c : Cause) : Bool := s.evPend.getLsbD c.bit

/-- A cause is enabled (R160). -/
def State.isEnabled (s : State) (c : Cause) : Bool := s.evEnable.getLsbD c.bit

/-- What only the host's writes and the resets change: RESET#'s level, the settings, the route table and its index,
the header registers of the next POST, the enable set, the counter select, and the model's queue of
commands. -/
structure SameSetup (s t : State) : Prop where
  pending  : t.pending = s.pending
  draws    : t.draws = s.draws
  resetLow : t.resetLow = s.resetLow
  cfg      : t.cfg = s.cfg
  routes   : t.routes = s.routes
  rtidx    : t.rtidx = s.rtidx
  sdest    : t.sdest = s.sdest
  sctl     : t.sctl = s.sctl
  stag     : t.stag = s.stag
  evEnable : t.evEnable = s.evEnable
  csel     : t.csel = s.csel

/-- What only the host reaches: its setup, the command result, the word on the bus, the open slot with
its read position, and the compose state (R54, R133, R134, R145, R146, R159). -/
structure SameHost (s t : State) : Prop extends SameSetup s t where
  busOut        : t.busOut = s.busOut
  cmdst         : t.cmdst = s.cmdst
  slot          : t.slot = s.slot
  readPos       : t.readPos = s.readPos
  readPast      : t.readPast = s.readPast
  composeOpen   : t.composeOpen = s.composeOpen
  composeHandle : t.composeHandle = s.composeHandle
  composeLen    : t.composeLen = s.composeLen
  noCells       : t.noCells = s.noCells
  tooLong       : t.tooLong = s.tooLong

/-- What a change of a lane's intake may change in the lane's unit: the intake itself, the own hold with
its renew timer and pending HOLD (R105), and the owed replay with its flags and pending REPLAY (R86). -/
def SameButIntake (u v : LaneUnit) : Prop :=
  v = { u with
    intake := v.intake, ownHold := v.ownHold, renewTimer := v.renewTimer, pendHold := v.pendHold
    replayOwed := v.replayOwed, replayRequested := v.replayRequested, pendReplay := v.pendReplay }

/-- A lane's unit after a teardown from `u` (R54, R78, R100, R104, R110, R117): every item at the value
those rules give it. The send queues are kept for target SEEK and emptied for target OFF (R129), and
the last bring-up fault is kept (R50). The line ends a parcel with ABT and completes a link word, at the
rate in use, and then idles or is quiet (R1, R56; log 9); the ABT takes the place of a symbol of which
nothing has gone, which is the model's choice (log 9); an IDL symbol that is on it keeps what has gone
of it, also where the teardown to SEEK changes the rate (log 29). -/
structure TornUnit (buplim : Nat) (g : Target) (u v : LaneUnit) : Prop where
  state      : v.state = (match g with | .seek => LaneState.seek | .off => LaneState.off)
  neighbour  : v.neighbour = none ∧ v.identical = 0 ∧ v.sent = 0
  terms      : v.agreed = none ∧ v.holdUse = false
  timers     : v.stopTimer = none ∧ v.grace = none
  seeking    : match g with
    | .seek => v.bringTimer = some (.load (buplim * 256)) ∧ v.greetTimer = some (.load 16)
      ∧ v.pendGreet = true
    | .off => v.bringTimer = none ∧ v.greetTimer = none ∧ v.pendGreet = false
  lastFault  : v.lastFault = u.lastFault
  framing    : v.framing = .between
  assembly   : v.asm = Assembly.start
  receiver   : v.expected = 0 ∧ v.accSinceAck = 0 ∧ v.ackTimer = none ∧ v.replayRequested = false
    ∧ v.replayOwed = false
  sender     : v.nextSeq = 0 ∧ v.replay = [] ∧ v.pointer = none ∧ v.replayTimer = .stopped
  partner    : v.partnerScope = .all ∧ v.partnerTimer = .load 0
  unit       : v.unit = .none
  words      : v.pendHold = none ∧ v.pendReplay = none ∧ v.pendAck = none
  forwards   : v.fwdX = [] ∧ v.fwdS = []
  sends      : match g with
    | .seek => v.sendX = u.sendX ∧ v.sendS = u.sendS
    | .off => v.sendX = [] ∧ v.sendS = []
  turns      : v.turnX = .send ∧ v.turnS = .send ∧ v.streak = 0
  ownHold    : v.ownHold = .clear ∧ v.renewTimer = none
  line       : v.txq = (match u.unit with
    | .parcel _ => (if u.symGone = 0 then [] else u.txq.take 1) ++ [⟨.abt, u.rate⟩]
    | .word _ => u.txq
    | .none => u.txq)
  present    : v.symGone = (match g with
    | .seek => u.symGone
    | .off => if v.txq = [] then 0 else u.symGone)
  shown      : v.txq = [] → v.lineNow = (match g with | .seek => .symbol .idl | .off => .quiet)

/-- What a teardown of a lane reaches (R39, R54, R115, R134, R159): the lane's unit ends as `TornUnit`
says, LANE is pending, and HELD if a partner hold was active; the other lane (but for its intake), the
delivery queues, everything of the host, the bytes in the cells, and every counter and event that no part
of a teardown names stay. -/
structure TornDown (l : Lane) (g : Target) (s t : State) : Prop where
  unit     : TornUnit s.cfg.buplim.toNat g (s.lane l) (t.lane l)
  lane     : t.isPending (.lane l) = true
  held     : t.isPending (.held l) = (s.isPending (.held l) || (s.lane l).held)
  other    : SameButIntake (s.lane (otherLane l)) (t.lane (otherLane l))
  delivery : t.dqX = s.dqX ∧ t.dqS = s.dqS
  host     : SameHost s t
  cells    : t.mem = s.mem
  counters : ∀ c, c ∉ [.ofLane l .laneFailures, .ofLane l .fwdFlushed, .reportLost] →
    t.counter c = s.counter c
  events   : ∀ x, x ∉ [.lane l, .held l, .bring l, .rpt, .rptOvf, .countHalf] →
    t.isPending x = s.isPending x

/-- A teardown that is not involuntary: LANE_FAILURES and BRING stay as they were (R55). -/
structure Stopped (l : Lane) (g : Target) (s t : State) : Prop extends TornDown l g s t where
  failures : t.counter (.ofLane l .laneFailures) = s.counter (.ofLane l .laneFailures)
  bring    : t.isPending (.bring l) = s.isPending (.bring l)

/-- An involuntary teardown: LANE_FAILURES has one increment more and BRING is pending (R55). -/
structure Lost (l : Lane) (g : Target) (s t : State) : Prop extends TornDown l g s t where
  failures : t.counter (.ofLane l .laneFailures) =
    (bump (.ofLane l .laneFailures) s).counter (.ofLane l .laneFailures)
  bring    : t.isPending (.bring l) = true

/-- A lane's unit once a symbol has arrived at its receiver's rate (R4). -/
def LaneUnit.heard (u : LaneUnit) : LaneUnit := { u with quiet := .load 4, signalLost := false }

/-- A lane's unit once a symbol has closed what was open: the framing state is BETWEEN (R2). -/
def LaneUnit.between (u : LaneUnit) : LaneUnit := { u.heard with framing := .between }

/-- An open assembly is given up (R24): its cells go to the tail of the free list, its record is freed,
the lane's intake falls by the cells, and the assembly takes its starting values. -/
def State.withoutAssembly (s : State) (l : Lane) : State :=
  let a := (s.lane l).asm
  let u := { s.lane l with asm := Assembly.start }
  { s.setLane l (if a.cells = [] then u
      else LaneUnit.intakeTo s.cfg (s.cfg.lane l) (u.intake - a.cells.length) u) with
    freeList := s.freeList ++ a.cells
    records := match a.record with
      | some h => s.records.set h Record.cleared
      | none => s.records }

/-- A REPLAY of the expected sequence is requested unless one of the two flags is set (R84). -/
def LaneUnit.replayAsked (u : LaneUnit) : LaneUnit :=
  if u.replayRequested = true ∨ u.replayOwed = true then u
  else { u with pendReplay := some u.expected, replayRequested := true }

/-- An ACK of every parcel accepted so far is requested, and the acknowledgement state cleared (R83,
R87). -/
def LaneUnit.ackAsked (u : LaneUnit) : LaneUnit :=
  { u with pendAck := some (u.expected - 1), accSinceAck := 0, ackTimer := none }

/-- A replay timer just loaded: running, or paused under a partner hold (R96). -/
def LaneUnit.loaded (rtmo : Nat) (u : LaneUnit) : ReplayTimer :=
  if 0 < u.partnerTimer.left then .paused (.load rtmo) else .running (.load rtmo)

/-- Reports for the local records among some replay-list entries (R93, R100, R155). -/
def State.entryReports (s : State) (l : Lane) (st : ReportStatus) (es : List ReplayEntry) :
    List Report :=
  (es.filter fun e => (s.record e.handle).arrival = some .ofHost).map fun e =>
    { handle := e.handle, lane := l, status := st, resends := e.attempts }

/-- CANCELLED reports for the local records among some send-queue entries (R129, R155). -/
def State.cancelReports (s : State) (l : Lane) (hs : List Handle) : List Report :=
  (hs.filter fun h => (s.record h).arrival = some .ofHost).map fun h =>
    { handle := h, lane := l, status := .cancelled, resends := 0 }

/-- The cells that dropping one reference of each record of a list, in order, returns (R26, R39). -/
def State.cellsFreedBy (s : State) (hs : List Handle) : List CellNo :=
  hs.flatMap fun h => if (s.record h).refs ≤ 1 then (s.record h).chain else []

/-- A record after one reference to it is dropped (R26). -/
def Record.dropped (r : Record) : Record :=
  if r.refs ≤ 1 then Record.cleared else { r with refs := r.refs - 1 }

/-- The send unit has taken some reports, one after another, on a queue of at most 32 (R156): the queue
takes them while it holds fewer than 32, RPT is raised if it takes one, and each report past that is
dropped with RPT_OVF and one increment of REPORT_LOST. -/
structure ReportsTaken (rs : List Report) (s t : State) : Prop where
  queue : t.reports = (s.reports ++ rs).take 32
  rpt   : t.isPending .rpt = (s.isPending .rpt || decide (rs ≠ [] ∧ s.reports.length < 32))
  ovf   : t.isPending .rptOvf =
    (s.isPending .rptOvf || decide (32 < s.reports.length + rs.length))
  lost  : t.counter .reportLost =
    (Nat.repeat (bump .reportLost) (s.reports.length + rs.length - 32) s).counter .reportLost

/-- What the end of some replay-list entries of a lane does outside that lane (R93, R155): their
reports are taken, each record loses a reference, and the cells of those that had no other return in
order; the host's side, the delivery queues, the bytes in the cells, and every other counter and event
stay. -/
structure EntriesDone (l : Lane) (es : List ReplayEntry) (s t : State) : Prop where
  reports  : ReportsTaken (s.entryReports l .done es) s t
  freed    : t.freeList = s.freeList ++ s.cellsFreedBy (es.map (·.handle))
  records  : ∀ h, t.record h = if h ∈ es.map (·.handle) then (s.record h).dropped else s.record h
  delivery : t.dqX = s.dqX ∧ t.dqS = s.dqS
  other    : SameButIntake (s.lane (otherLane l)) (t.lane (otherLane l))
  host     : SameHost s t
  cells    : t.mem = s.mem
  counters : ∀ c, c ≠ .reportLost → t.counter c = s.counter c
  events   : ∀ x, x ∉ [.rpt, .rptOvf, .countHalf] → t.isPending x = s.isPending x

/-- Every handle that a queue entry or a replay-list entry of a lane names (R23). -/
def LaneUnit.holders (u : LaneUnit) : List Handle :=
  u.fwdX ++ u.fwdS ++ u.sendX ++ u.sendS ++ u.replay.map (·.handle)

/-- The replay list of a lane once the unit in progress is cut (R92, R129). -/
def LaneUnit.entriesCut (u : LaneUnit) : List ReplayEntry :=
  match u.unit with
  | .parcel q => u.replay.map fun e => if e.seq = q then { e with onWire := false } else e
  | .word _ => u.replay
  | .none => u.replay

/-- The entries that leave with the unit cut: acked ones that waited for its end (R92, R100). -/
def LaneUnit.entriesDone (u : LaneUnit) : List ReplayEntry :=
  match u.unit with
  | .parcel _ => u.entriesCut.takeWhile fun e => e.acked && !e.onWire
  | .word _ => []
  | .none => []

/-- The send-queue entries that a teardown cancels (R129). -/
def LaneUnit.cancels (g : Target) (u : LaneUnit) : List Handle :=
  match g with
  | .off => u.sendX ++ u.sendS
  | .seek => []

/-- The handles whose references a teardown drops, in order (R100, R129). -/
def LaneUnit.drops (g : Target) (u : LaneUnit) : List Handle :=
  u.replay.map (·.handle) ++ u.fwdX ++ u.fwdS ++ u.cancels g

/-- The order in which a teardown of a lane ends what the lane holds (R24, R39, R78, R100, R129, R155):
the assembly is returned; then come the acked entries that leave with the unit cut, the rest of the
replay list, the forward queues and, for target OFF, the send queues, with DONE, LOST and CANCELLED
reports for the local records, taken as R156 says, FWD_FLUSHED for every forward-queue entry, and the
cells of each record whose last reference goes (log 8). -/
structure EndedInOrder (l : Lane) (g : Target) (s t : State) : Prop where
  reports : ReportsTaken
    (s.entryReports l .done (s.lane l).entriesDone
      ++ s.entryReports l .lost ((s.lane l).entriesCut.drop (s.lane l).entriesDone.length)
      ++ s.cancelReports l ((s.lane l).cancels g)) s t
  freed   : t.freeList = s.freeList ++ (s.lane l).asm.cells ++ s.cellsFreedBy ((s.lane l).drops g)
  records : ∀ h, t.record h =
    if (s.lane l).asm.record = some h then Record.cleared
    else if h ∈ (s.lane l).drops g then (s.record h).dropped
    else s.record h
  flushed : t.counter (.ofLane l .fwdFlushed) =
    (Nat.repeat (bump (.ofLane l .fwdFlushed)) ((s.lane l).fwdX.length + (s.lane l).fwdS.length)
      s).counter (.ofLane l .fwdFlushed)

/-- No record is held twice by a lane, nor held by it while the lane assembles it (R22, R23). -/
def LaneUnit.HoldsOnce (u : LaneUnit) : Prop :=
  u.holders.Nodup ∧ ∀ h, u.asm.record = some h → h ∉ u.holders

/-- A command of the lanes: a symbol, a link word, a line event, a timer or a transmitter event. Every
other command is a pin or bus access of the host. -/
def isLaneCommand : Instr → Bool
  | .sopReceived _ | .sowReceived _ | .idlReceived _ | .dataByteReceived _ _ | .eopReceived _
  | .abtReceived _ | .ackReceived _ _ | .replayReceived _ _ | .holdReceived _ _ _
  | .greetReceived _ _ | .lossOfSignal _ | .startGraceEnd _ | .greetIntervalExpiry _
  | .bringUpTimerExpiry _ | .stopTimerExpiry _ | .ackDelayExpiry _ | .replayTimerExpiry _
  | .renewTimerExpiry _ | .partnerHoldExpiry _ | .startOpportunity _ | .unitEnd _
  | .symbolAtOtherRate _ => true
  | .pinReset | .laneEnable _ | .laneStop _ | .laneAbort _ | .take _ | .release _ | .openSend _
  | .post _ | .abandon _ | .routeClear _ | .softReset _ | .unknownCommand _ _ | .ddataRead
  | .sdataWrite _ | .rptqRead | .cvalRead | .cselWrite _ | .evpendWrite _ | .evenWrite _
  | .rtentWrite _ | .registerWrite _ _ => false

/-- The part while RESET# is held low (R171, R180): everything is as after pin reset, but for the model's
own queue and count of free values. -/
def State.HeldInReset (s : State) : Prop :=
  s = { State.reset with pending := s.pending, draws := s.draws, resetLow := true }

/-- The command that is a timed matter of a lane (log 1). -/
def TimedKind.command (l : Lane) : TimedKind → Instr
  | .unitEnd => .unitEnd l
  | .opportunity => .startOpportunity l
  | .lossOfSignal => .lossOfSignal l
  | .graceEnd => .startGraceEnd l
  | .greetInterval => .greetIntervalExpiry l
  | .bringUp => .bringUpTimerExpiry l
  | .stop => .stopTimerExpiry l
  | .ackDelay => .ackDelayExpiry l
  | .replay => .replayTimerExpiry l
  | .renew => .renewTimerExpiry l
  | .partnerEnd => .partnerHoldExpiry l

/-- Ticks in one bit time (log 1): a tick is one bit time at 16 Mbit/s. -/
def Rate.ticksPerBit : Rate → Nat
  | .r4 => 4
  | .r8 => 2
  | .r16 => 1

/-! ### The register map -/

/-- A value lies within bounds, both included (00_scope 6.3). -/
abbrev Within (lo hi : Nat) (v : Word) : Prop := lo ≤ v.toNat ∧ v.toNat ≤ hi

/-- The register map's reset columns (R175): offset, value after pin reset, value after SOFT RESET, none
where the register is kept. RTENT shows the route table and stands apart. -/
def registerMapResets : List (Byte × Word × Option Word) :=
  [(0x02, 0, some 1), (0x04, 0, none), (0x06, 0, none), (0x08, 0x000F, none), (0x0A, 0x000F, none),
   (0x0C, 0, some 0), (0x0E, 0, some 0), (0x10, 0, some 0), (0x12, 384, none), (0x14, 384, none),
   (0x16, 256, none), (0x18, 256, none), (0x1A, 320, none), (0x1C, 320, none), (0x1E, 128, none),
   (0x20, 128, none), (0x22, 1024, none), (0x24, 128, none), (0x26, 32, none), (0x28, 2048, none),
   (0x2A, 4, none), (0x2C, 64, none), (0x2E, 4095, none), (0x30, 4, none), (0x32, 32, none),
   (0x34, 256, none), (0x36, 64, none)]
  ++ [(0x38, 1024, some 1024), (0x3A, 0, some 0), (0x3C, 0, some 0), (0x3E, 0, some 0),
   (0x40, 0, some 0), (0x44, 0x4040, none), (0x46, 48, none), (0x48, 0, some 0), (0x4A, 0, some 0),
   (0x4C, 0, some 0), (0x4E, 0, some 0), (0x50, 0, some 0), (0x54, 0, some 0), (0x56, 0, some 0),
   (0x58, 0x000F, some 0x000F), (0x5A, 0, some 0), (0x5C, 0, some 0), (0x60, 0, some 0),
   (0x62, 0, some 0), (0x64, 0, some 0), (0x66, 0, none), (0x68, 0, some 0), (0x6A, 0, some 0),
   (0x6C, 0, some 0)]

/-- The offsets of R175 whose writes are ignored (R171): the read-only registers, DDATA, RPTQ and CVAL,
and the unassigned offsets. -/
def ignoredOffsets : List Byte :=
  [0x02, 0x0C, 0x0E, 0x10, 0x38, 0x3A, 0x3C, 0x3E, 0x48, 0x4A, 0x4C, 0x4E, 0x50, 0x52, 0x54, 0x5C,
   0x60, 0x62, 0x6A, 0x6C, 0x6E, 0x70, 0x72, 0x74, 0x76, 0x78, 0x7A, 0x7C, 0x7E]

/-- The checked registers writable only while both lanes are OFF (R174), with their ranges (R175). -/
def sharedSettings : List (Byte × Nat × Nat) :=
  [(0x04, 0, 255), (0x22, 1, 4095), (0x24, 1, 4094), (0x26, 1, 255), (0x28, 16, 4095), (0x2A, 1, 15),
   (0x2C, 1, 255), (0x2E, 1, 4095)]

/-- The checked registers writable only while their lane is OFF (R174), with their ranges (R175). -/
def laneSettings : List (Lane × Byte × Nat × Nat) :=
  [(.W, 0x08, 0, 15), (.E, 0x0A, 0, 15), (.W, 0x12, 16, 1024), (.E, 0x14, 16, 1024),
   (.W, 0x16, 0, 1024), (.E, 0x18, 0, 1024), (.W, 0x1A, 0, 1024), (.E, 0x1C, 0, 1024),
   (.W, 0x1E, 0, 1024), (.E, 0x20, 0, 1024)]

/-- The checked registers without a lane-state lock (R174) whose range is one span (R175): GROUPS,
XRATIO, XRES, LALLOW, PALARM, FDEPTH and SCTL. -/
def freeSettings : List (Byte × Nat × Nat) :=
  [(0x06, 0, 0x7FFF), (0x30, 0, 15), (0x32, 0, 255), (0x34, 8, 1024), (0x36, 0, 1024), (0x46, 1, 128),
   (0x58, 0, 127)]

/-! ### Settings and routes -/

/-- The ranges of one lane's settings (R175). -/
structure LaneSettings.Legal (c : LaneSettings) : Prop where
  lcfg : Within 0 15 c.lcfg
  cap  : Within 16 1024 c.cap
  hstd : Within 0 1024 c.hstd
  hall : Within 0 1024 c.hall
  hrel : Within 0 1024 c.hrel

/-- The ranges of the checked registers that SOFT RESET keeps, and of SCTL (R175). -/
structure State.LegalSettings (s : State) : Prop where
  station : Within 0 255 s.cfg.station
  groups  : s.cfg.groups.getLsbD 15 = false
  lanes   : ∀ l, (s.cfg.lane l).Legal
  htime   : Within 1 4095 s.cfg.htime
  hrenew  : Within 1 4094 s.cfg.hrenew
  ackdly  : Within 1 255 s.cfg.ackdly
  rtmo    : Within 16 4095 s.cfg.rtmo
  rlim    : Within 1 15 s.cfg.rlim
  buplim  : Within 1 255 s.cfg.buplim
  stoptmo : Within 1 4095 s.cfg.stoptmo
  xratio  : Within 0 15 s.cfg.xratio
  xres    : Within 0 255 s.cfg.xres
  lallow  : Within 8 1024 s.cfg.lallow
  palarm  : Within 0 1024 s.cfg.palarm
  depthX  : 1 ≤ s.cfg.depthLimit .express ∧ s.cfg.depthLimit .express ≤ 128
  depthS  : 1 ≤ s.cfg.depthLimit .standard ∧ s.cfg.depthLimit .standard ≤ 128
  fdepth  : Within 1 128 s.cfg.fdepth
  sctl    : Within 0 127 s.sctl

/-- The route table's own rule (R71): every valid entry holds a station id of 1 to 239, and no two
valid entries hold the same one. -/
structure State.LegalRoutes (s : State) : Prop where
  station  : ∀ (i : Fin 32) e, s.routes[i] = some e → 1 ≤ e.station.toNat ∧ e.station.toNat ≤ 239
  distinct : ∀ (i j : Fin 32) e f, s.routes[i] = some e → s.routes[j] = some f →
    e.station = f.station → i = j

/-! ### A lane's blocks and its state -/

/-- What the lane state says about the lane's blocks: the timers of bring-up control run in the states
that R42, R46, R49, R51 and R54 give them, the neighbour record is held in AGREE, UP and STOPPING
(R40), a lane that carries no traffic has the traffic state of R80, R89, R103, R104, R110 and R117, a
lane without hold use has no hold (R103), a lane that is OFF has empty send queues (R129, R152), and
a quiet line has no symbol in progress (R1). -/
structure LaneUnit.Consistent (u : LaneUnit) : Prop where
  neighbour  : u.neighbour.isSome = (u.state.carries || u.state == .agree)
  bringTimer : u.bringTimer.isSome = u.state.greets
  greetTimer : u.greetTimer.isSome = u.state.greets
  stopTimer  : u.stopTimer.isSome = (u.state == .stopping)
  grace      : u.grace.isSome = true → u.state.carries = true
  pendGreet  : u.pendGreet = true → u.state.greets = true
  terms      : u.state.carries = false → u.agreed = none ∧ u.holdUse = false
  receiver   : u.state.carries = false →
    u.asm.isOpen = false ∧ u.expected = 0 ∧ u.accSinceAck = 0 ∧ u.ackTimer = none
      ∧ u.replayRequested = false ∧ u.replayOwed = false
  sender     : u.state.carries = false →
    u.nextSeq = 0 ∧ u.replay = [] ∧ u.pointer = none ∧ u.replayTimer = .stopped
      ∧ u.pendHold = none ∧ u.pendReplay = none ∧ u.pendAck = none
      ∧ u.fwdX = [] ∧ u.fwdS = []
  noHold     : u.holdUse = false → u.partnerTimer.left = 0 ∧ u.ownHold = .clear ∧ u.pendHold = none
  renew      : u.renewTimer.isSome = true → u.ownHold ≠ .clear
  sendQueues : u.state = .off → u.sendX = [] ∧ u.sendS = []
  quietLine  : u.state = .off → u.txq = [] → u.symGone = 0

/-! ### The replay list -/

/-- Sequence numbers run consecutively modulo 64 from oldest to newest (R90). -/
def Consecutive : List ReplayEntry → Prop
  | a :: b :: es => b.seq = a.seq + 1 ∧ Consecutive (b :: es)
  | [_] => True
  | [] => True

/-- The seq of the data parcel in progress, if one is (R117). -/
def TxUnit.parcelSeq : TxUnit → List Seq
  | .parcel q => [q]
  | .word _ => []
  | .none => []

/-- A sound replay list (R89, R90, R92, R93, R96): at most 32 entries with consecutive numbers, the
newest one less than the next sequence; acked entries before the others; the entry on wire is the
parcel in progress; the pointer names an entry not marked acked; the timer is stopped exactly on an
empty list, paused exactly under a partner hold; and a STOPPING lane has entries still to drain
(R53). -/
structure LaneUnit.ReplaySound (u : LaneUnit) : Prop where
  window      : u.replay.length ≤ 32
  consecutive : Consecutive u.replay
  newest      : ∀ e, u.replay.getLast? = some e → e.seq + 1 = u.nextSeq
  ackedFirst  : u.replay.Pairwise fun a b => b.acked = true → a.acked = true
  onWire      : (u.replay.filter (·.onWire)).map (·.seq) = u.unit.parcelSeq
  pointer     : ∀ q, u.pointer = some q → ∃ e ∈ u.replay, e.seq = q ∧ e.acked = false
  timer       : u.replayTimer = .stopped ↔ u.replay = []
  running     : ∀ n, u.replayTimer = .running n → u.held = false
  paused      : ∀ n, u.replayTimer = .paused n → u.held = true
  draining    : u.state = .stopping → u.replay ≠ []

/-! ### Counts and timers -/

/-- A timer that runs has at most so many beats left, the one under way not over. -/
def AtMost (t : Option Countdown) (n : Nat) : Prop := ∀ k, t = some k → k.left ≤ n ∧ k.gone < 256

/-- The counts and timers of a lane are within the ranges R40, R60, R80, R89, R90, R104, R110 and R117
give them; RLIM bounds the attempts (R97), the quiet interval is of 4 beats (R4), and a symbol of 10 bit
times (R1). -/
structure LaneUnit.InRange (rlim : Nat) (u : LaneUnit) : Prop where
  identical  : u.identical ≤ 255
  sent       : u.sent ≤ 255
  greetTimer : AtMost u.greetTimer 16
  bringTimer : AtMost u.bringTimer 65280
  stopTimer  : AtMost u.stopTimer 4095
  grace      : AtMost u.grace 8
  asmBytes   : u.asm.byteCount ≤ 1024
  asmStored  : u.asm.stored ≤ 512 ∧ u.asm.limit ≤ 512
  asmHolding : u.asm.header.length ≤ 8 ∧ u.asm.check.length ≤ 2
  accepted   : u.accSinceAck ≤ 8
  ackTimer   : AtMost u.ackTimer 255
  window     : u.replay.length ≤ 32
  attempts   : ∀ e ∈ u.replay, e.attempts ≤ rlim
  replayTime : ∀ n, u.replayTimer = .running n ∨ u.replayTimer = .paused n →
    n.left ≤ 4095 ∧ n.gone < 256
  partner    : u.partnerTimer.left ≤ 4095 ∧ u.partnerTimer.gone ≤ 256
  renewTimer : AtMost u.renewTimer 4094
  fwd        : u.fwdX.length ≤ 128 ∧ u.fwdS.length ≤ 128
  streak     : u.streak ≤ 15
  quiet      : u.quiet.left ≤ 4 ∧ u.quiet.gone < 256
  symbol     : u.symGone < 40

/-- The counts of the part are within their ranges (R27, R28, R133, R146), beside those of the lanes. -/
structure State.InRange (s : State) : Prop where
  lanes      : ∀ l, (s.lane l).InRange s.cfg.rlim.toNat
  intake     : ∀ l, (s.lane l).intake ≤ (s.cfg.lane l).cap.toNat
  localCount : s.localCount ≤ s.cfg.lallow.toNat
  delivery   : s.dqX.length ≤ 128 ∧ s.dqS.length ≤ 128
  compose    : s.composeLen ≤ 512 ∧ s.composeLen % 2 = 0
  reports    : s.reports.length ≤ 32

/-! ### The pool -/

/-- Every holder of a record: the delivery queues, the open slot, and the queues and replay lists of
both lanes (R23). -/
def State.holders (s : State) : List Handle :=
  s.dqX ++ s.dqS ++ s.slot.toList ++ s.laneW.holders ++ s.laneE.holders

/-- The cells of every chain and of both assemblies (R19). -/
def State.usedCells (s : State) : List CellNo :=
  s.records.toList.flatMap (·.chain) ++ s.laneW.asm.cells ++ s.laneE.asm.cells

/-- How many cells the records of one arrival hold (R27, R28). -/
def State.chainCells (s : State) (a : Arrival) : Nat :=
  (s.records.toList.map fun r => if r.arrival = some a then r.chain.length else 0).sum

/-- A sound pool: every cell is in exactly one place (R19); the reference count of every record is the
number of its holders, at most two (R23); the marks name the compose record and the two assemblies'
records and no held one (R21, R22); a FREE record is cleared (R26); a lane names a record once (R23);
the three counts are what they count (R27, R28); an assembly without a record holds no cells, and an
open one lacks its record exactly when it is overrun (R31, R61); an assembly is open only inside a
parcel on a lane that carries traffic (R60); the delivery queues and the slot name received records, each
once and in the queue of its class (R133); a forward queue names records of its class that arrived on the
other lane (R127), a send queue local records of its class (R128); and a replay-list entry has its
record's class, its record being one of these two (R90). -/
structure State.PoolSound (s : State) : Prop where
  cells     : (s.freeList ++ s.usedCells).Perm (List.finRange 1024)
  refs      : ∀ h, (s.record h).refs = s.holders.count h
  two       : ∀ h, (s.record h).refs ≤ 2
  free      : ∀ h, (s.record h).isFree = true → s.record h = Record.cleared
  once      : ∀ l, (s.lane l).holders.Nodup
  held      : ∀ h, 0 < (s.record h).refs → (s.record h).compose = false ∧ (s.record h).assembly = none
  compose   : ∀ h, (s.record h).compose = (s.composeOpen && h == s.composeHandle)
  composing : ∀ h, (s.record h).compose = true →
    (s.record h).assembly = none ∧ (s.record h).arrival = some .ofHost
  assembly  : ∀ h l, (s.record h).assembly = some l ↔ (s.lane l).asm.record = some h
  assembled : ∀ h l, (s.record h).assembly = some l →
    (s.record h).chain = [] ∧ (s.record h).compose = false
  intake    : ∀ l, (s.lane l).intake = s.chainCells (.fromLane l) + (s.lane l).asm.cells.length
  localIs   : s.localCount = s.chainCells .ofHost
  bare      : ∀ l, (s.lane l).asm.record = none → (s.lane l).asm.cells = []
  closed    : ∀ l, (s.lane l).asm.isOpen = false → (s.lane l).asm.record = none
  overrun   : ∀ l, (s.lane l).asm.isOpen = true →
    (s.lane l).asm.overrun = (s.lane l).asm.record.isNone
  opened    : ∀ l, (s.lane l).asm.isOpen = true →
    (s.lane l).framing = .inParcel ∧ (s.lane l).state.carries = true
  queued    : ∀ k, ∀ h ∈ s.dq k, (s.record h).cls = k
  delivered : ∀ h ∈ s.dqX ++ s.dqS ++ s.slot.toList, ∃ l, (s.record h).arrival = some (.fromLane l)
  handed    : (s.dqX ++ s.dqS ++ s.slot.toList).Nodup
  forwarded : ∀ l k, ∀ h ∈ (s.lane l).fwd k,
    (s.record h).cls = k ∧ (s.record h).arrival = some (.fromLane (otherLane l))
  posted    : ∀ l k, ∀ h ∈ (s.lane l).send k,
    (s.record h).cls = k ∧ (s.record h).arrival = some .ofHost
  sent      : ∀ l, ∀ e ∈ (s.lane l).replay, (s.record e.handle).cls = e.cls
    ∧ ((s.record e.handle).arrival = some .ofHost
      ∨ (s.record e.handle).arrival = some (.fromLane (otherLane l)))

/-! ### Whole payloads -/

/-- An assembly that is not overrun holds what has arrived (R60 to R63): the first 8 bytes, the last two
of the others, the payload bytes before those up to the storing limit, and ceil(stored / 64) cells. -/
structure Assembly.Whole (a : Assembly) : Prop where
  header : a.header.length = min a.byteCount 8
  check  : a.check.length = min (a.byteCount - 8) 2
  limit  : a.limit = if a.header.length = 8 ∧ 512 < (Header.decode a.header).length then 0 else 512
  stored : a.stored = min (a.byteCount - 10) a.limit
  cells  : a.cells.length = (a.stored + 63) / 64

/-- No payload lacks a cell: a held record has ceil(length / 64) cells (R20), the compose record
ceil(compose length / 64) (R146), and an open assembly what its bytes call for. -/
structure State.Whole (s : State) : Prop where
  held     : ∀ h, 0 < (s.record h).refs →
    (s.record h).length ≤ 512 ∧ (s.record h).chain.length = ((s.record h).length + 63) / 64
  compose  : s.composeOpen = true →
    (s.record s.composeHandle).chain.length = (s.composeLen + 63) / 64
  assembly : ∀ l, (s.lane l).asm.isOpen = true → (s.lane l).asm.overrun = false →
    (s.lane l).asm.Whole

end Sys2Proof.Machine
end

