-- ==== Sys2Proof/WellFormed.lean ====
section
/-! DEFINITION. Which command terms stand for something the table's rows describe. A term outside
this check still has a meaning (log 20). -/

namespace Sys2Proof

/-- The command codes of R173. -/
def commandCodes : List Byte :=
  [0x01#8, 0x02#8, 0x03#8, 0x10#8, 0x11#8, 0x20#8, 0x21#8, 0x22#8, 0x30#8, 0x3F#8]

/-- Offsets of the registers whose writes are rows of their own: CMD, RTENT, SDATA, EVPEND, EVEN and
CSEL (R175). REGISTER_WRITE is a write to any other register. -/
def ownRowOffsets : List Byte :=
  [0x00#8, 0x42#8, 0x5E#8, 0x64#8, 0x66#8, 0x68#8]

/-- The checks on a command term: an UNKNOWN_COMMAND's code names no command (R173); a
REGISTER_WRITE's offset is even, within the 64 registers (R171), and none with a row of its own; a
valid GREET's station id is 1 to 239 (R12). Every other operand admits each of its values. -/
def Instr.wellFormed : Instr → Bool
  | .unknownCommand code _ => !commandCodes.contains code
  | .registerWrite offset _ =>
      offset.toNat % 2 == 0 && decide (offset.toNat < 0x80) && !ownRowOffsets.contains offset
  | .greetReceived _ g => decide (1 ≤ g.station.toNat) && decide (g.station.toNat ≤ 239)
  | .pinReset | .laneEnable _ | .laneStop _ | .laneAbort _ | .take _ | .release _ | .openSend _
  | .post _ | .abandon _ | .routeClear _ | .softReset _ | .ddataRead | .sdataWrite _ | .rptqRead
  | .cvalRead | .cselWrite _ | .evpendWrite _ | .evenWrite _ | .rtentWrite _ | .sopReceived _
  | .sowReceived _ | .idlReceived _ | .dataByteReceived _ _ | .eopReceived _ | .abtReceived _
  | .ackReceived _ _ | .replayReceived _ _ | .holdReceived _ _ _ | .lossOfSignal _
  | .startGraceEnd _ | .greetIntervalExpiry _ | .bringUpTimerExpiry _ | .stopTimerExpiry _
  | .ackDelayExpiry _ | .replayTimerExpiry _ | .renewTimerExpiry _ | .partnerHoldExpiry _
  | .startOpportunity _ | .unitEnd _ | .symbolAtOtherRate _ => true

end Sys2Proof
end

