-- ==== Sys2Proof/Certificates/Slice0/Obligations.lean ====
section
/-! DEFINITION. The statements for the provers: what the rules of spec/ say the part does, command by
command, and the invariants that every step keeps. -/

section

open Sys2Proof Sys2Proof.Machine

/-! ### The step -/

/-- A command at the front of the queue is carried out on the state with the queue's rest; with an empty
queue a tick of time passes (the model's choice, log 1). -/
def Obligations.StepTakesFrontCommandOrTime : Prop :=
  (∀ (c : Instr) (s : State), step { s with pending := c :: s.pending } = exec c s)
    ∧ ∀ s : State, s.pending = [] → step s = .next (tick s)

/-- Every command answers a next state and leaves the queue and the count of free values alone; the
commands of the lanes leave the host's side alone as well, and so does a tick but for the count of free
values (R54, R159; log 1, log 18). -/
def Obligations.CommandsLeaveQueueAndHostSide : Prop :=
  (∀ (c : Instr) (s : State),
    ∃ t, exec c s = .next t ∧ t.pending = s.pending ∧ t.draws = s.draws
      ∧ (isLaneCommand c = true → SameHost s t))
  ∧ ∀ s : State, SameHost { s with draws := (tick s).draws } (tick s)

/-! ### Resets -/

/-- Both resets give every register of the window the value of the register map, RTENT its table
(R175). -/
def Obligations.ResetsGiveRegisterMapValues : Prop :=
  ∀ s : State,
    (∃ t, exec .pinReset s = .next t
      ∧ (∀ e ∈ registerMapResets, t.readRegister (RegName.ofOffset e.1) = e.2.1)
      ∧ ∀ i : Fin 32, t.routes[i] = none)
    ∧ ∀ arg : Byte, s.resetLow = false → ∃ t, exec (.softReset arg) s = .next t
      ∧ (∀ e ∈ registerMapResets, t.readRegister (RegName.ofOffset e.1) =
          match e.2.2 with
          | some v => v
          | none => s.readRegister (RegName.ofOffset e.1))
      ∧ t.routes = s.routes

/-- Both resets leave both lanes OFF with every item of R40, R60, R80, R89, R104, R110 and R117 at its
reset value, the line quiet, and the pool, the delivery unit, the send unit and the counters empty; the
enable set is emptied by pin reset and kept by SOFT RESET. -/
def Obligations.ResetsEndAllTraffic : Prop :=
  ∀ (s : State) (c : Instr), (c = .pinReset ∨ (s.resetLow = false ∧ ∃ arg, c = .softReset arg)) →
    ∃ t, exec c s = .next t
      ∧ (∀ l : Lane, TornUnit 0 .off { s.lane l with lastFault := .none, unit := .none, txq := [] }
            (t.lane l)
          ∧ (t.lane l).signalLost = false ∧ (t.lane l).intake = 0 ∧ (t.lane l).lineNow = .quiet)
      ∧ t.resetLow = false ∧ t.freeList = List.finRange 1024
      ∧ (∀ h, (t.record h).isFree = true ∧ (t.record h).chain = [])
      ∧ t.localCount = 0 ∧ t.dqX = [] ∧ t.dqS = [] ∧ t.slot = none ∧ t.readPos = 0
      ∧ t.readPast = false ∧ t.composeOpen = false ∧ t.composeHandle = 0 ∧ t.composeLen = 0
      ∧ t.noCells = false ∧ t.tooLong = false ∧ t.reports = []
      ∧ (∀ k, t.counter k = 0) ∧ t.csel = 0 ∧ t.evPend = 0 ∧ intLow t = false
      ∧ t.evEnable = (if c = .pinReset then 0 else s.evEnable)

/-- RESET# low starts pin reset; while it is held low every register reads 0, every write, read and other
command has no effect, INT# is released, the lines are quiet and time changes nothing; when it returns
high every register holds its pin-reset value (R171, R180). PIN_RESET is the pin held low and released,
and releases one that is held (log 16). In every state with RESET# low a read of the window answers 0
and a write of any register has no effect, and every step keeps a part held in reset as it is. -/
def Obligations.WindowAnswersZeroWhileResetLow : Prop :=
  (∀ s : State, s.resetFalls.HeldInReset
    ∧ ∃ t, exec .pinReset s = .next t ∧ t = s.resetFalls.resetRises ∧ exec .pinReset s.resetFalls = .next t
      ∧ t = { State.reset with pending := s.pending, draws := s.draws })
  ∧ (∀ s : State, s.HeldInReset →
      intLow s = false ∧ (∀ l, (s.lane l).state = .off ∧ (s.lane l).lineNow = .quiet)
      ∧ (∀ c : Instr, c ≠ .pinReset → exec c s = .next s) ∧ tick s = s)
  ∧ (∀ s : State, s.resetLow = true → (∀ r, s.readRegister r = 0)
      ∧ (∀ o v, exec (.registerWrite o v) s = .next s)
      ∧ ∀ c ∈ [Instr.ddataRead, .rptqRead, .cvalRead], exec c s = .next { s with busOut := 0 })
  ∧ ∀ s s' : State, (s.resetLow = true → s.HeldInReset) → step s = .next s' →
      s'.resetLow = true → s'.HeldInReset

/-! ### Time -/

/-- Time on one lane, from the moment a timer is loaded or a symbol begins: a beat is 64 bit times of the
lane's rate, and every running timer falls by one at the end of each of its beats, but a paused replay
timer not at all; a partner hold of t beats is due to end after t beats and not before; four beats
without a transition bring the quiet interval to its end; a symbol leaves the line after 10 bit times
of its own rate, and IDL follows IDL likewise at the lane's; nothing else of the lane moves, and in OFF
only the line (R1, R4, R5, R89, R96, R112; log 1, log 3). That a symbol of a unit goes at a rate of its
own, whatever the lane's is, is the model's choice (log 9, log 10), and so is that a pause keeps the part
of a beat that has gone (log 31) and that the quiet interval stands still in the start grace (log 30). -/
def Obligations.TimeCountsBeatsAndSymbols : Prop :=
  ∀ (u : LaneUnit) (k : Nat),
    let v := Nat.repeat LaneUnit.age k u
    let beat := 64 * u.rate.ticksPerBit
    let counts (f : LaneUnit → Option Countdown) : Prop :=
      (f u = none → f v = none)
      ∧ ∀ n, f u = some (.load n) → (f v).map (·.left) = some (n - k / beat)
    let running (n : Nat) (r : ReplayTimer) : Prop := ∃ c, r = .running c ∧ c.left = n - k / beat
    v = { u with
      greetTimer := v.greetTimer, bringTimer := v.bringTimer, stopTimer := v.stopTimer
      grace := v.grace, ackTimer := v.ackTimer, replayTimer := v.replayTimer
      renewTimer := v.renewTimer, partnerTimer := v.partnerTimer, quiet := v.quiet
      txq := v.txq, symGone := v.symGone }
    ∧ (u.state = .off → v = { u with txq := v.txq, symGone := v.symGone })
    ∧ (u.state ≠ .off →
        counts (·.greetTimer) ∧ counts (·.bringTimer) ∧ counts (·.stopTimer) ∧ counts (·.grace)
        ∧ counts (·.ackTimer) ∧ counts (·.renewTimer)
        ∧ (u.replayTimer = .stopped → v.replayTimer = .stopped)
        ∧ (∀ n, u.replayTimer = .running (.load n) → running n v.replayTimer)
        ∧ (∀ c, u.replayTimer = .paused c → v.replayTimer = .paused c)
        ∧ (u.partnerTimer.left = 0 → v.partnerTimer = u.partnerTimer)
        ∧ (∀ n, 0 < n → u.partnerTimer = .load n →
            v.partnerTimer.left = max 1 (n - k / beat)
            ∧ (v.partnerTimer.left = 1 ∧ 256 ≤ v.partnerTimer.gone ↔ n * beat ≤ k))
        ∧ (u.watches = true → u.quiet = .load 4 → v.quiet.left = 4 - k / beat)
        ∧ (u.watches = false → v.quiet = u.quiet))
    ∧ (∀ x rest, u.txq = x :: rest → u.symGone = 0 →
        (k < 10 * x.rate.ticksPerBit → v.txq = x :: rest ∧ v.lineNow = .symbol x.symbol)
        ∧ (k = 10 * x.rate.ticksPerBit → v.txq = rest ∧ v.symGone = 0))
    ∧ (u.txq = [] → v.txq = [])
    ∧ (u.txq = [] → u.state = .off → v.symGone = u.symGone)
    ∧ (u.txq = [] → u.state ≠ .off → u.symGone = 0 →
        (v.symGone = 0 ↔ k % (10 * u.rate.ticksPerBit) = 0))

/-- A tick with nothing commanded: both lanes move on, and then each matter that is due, the end of a
unit, a start opportunity with something to start, loss of signal and the timers run out, has the effect
of its command: none, one, or several in some order, each if it is due at its turn, among them the start
opportunity at the end of an IDL symbol, which a matter taken before it can give something to start (R4,
R5, R58, R99, R108, R112, R114, R118, R126; log 1, log 2). That an opportunity at the end of an IDL
symbol is due when the arbiter would choose something, where R118 lists events, is the model's reading
(log 12). -/
def Obligations.TickBringsAboutWhatIsDue : Prop :=
  ∀ s : State, s.pending = [] →
    let aged := (s.modLane .W LaneUnit.age).modLane .E LaneUnit.age
    let drawn (n : Nat) : State := { aged with draws := s.draws + n }
    let idlEnds (l : Lane) : Prop := (aged.lane l).state ≠ .off ∧ (aged.lane l).unit = .none
      ∧ (aged.lane l).txq = [] ∧ (aged.lane l).symGone = 0
    let together (x : Lane × TimedKind) : Prop :=
      aged.isDue x.1 x.2 = true ∨ (x.2 = .opportunity ∧ idlEnds x.1)
    ((∀ l k, aged.isDue l k = false) → step s = .next aged)
    ∧ (∀ l k, aged.isDue l k = true → (∀ x, together x → x = (l, k)) →
        step s = exec (k.command l) (drawn 1))
    ∧ ((∃ l k, aged.isDue l k = true) →
        ∃ xs : List (Lane × TimedKind), xs.Nodup ∧ (∀ x, x ∈ xs ↔ together x)
          ∧ step s = .next (xs.foldl State.happenIfDue (drawn xs.length)))
    ∧ (∀ (t : State) x, (t.isDue x.1 x.2 = true →
          exec (TimedKind.command x.1 x.2) t = .next (t.happenIfDue x))
        ∧ (t.isDue x.1 x.2 = false → t.happenIfDue x = t))
    ∧ ∀ (t : State) (l : Lane),
      let u := t.lane l
      let out (c : Option Countdown) : Prop := ∃ d, c = some d ∧ d.left = 0
      (t.isDue l .unitEnd = true ↔ u.unit ≠ .none ∧ u.txq = [])
      ∧ (t.isDue l .opportunity = true ↔ u.state ≠ .off ∧ u.unit = .none ∧ u.txq = []
          ∧ u.symGone = 0 ∧ u.arbiter t.cfg (t.cfg.lane l) ≠ .nothing)
      ∧ (t.isDue l .lossOfSignal = true ↔ u.watches = true ∧ u.quiet.left = 0)
      ∧ (t.isDue l .graceEnd = true ↔ out u.grace)
      ∧ (t.isDue l .greetInterval = true ↔ out u.greetTimer)
      ∧ (t.isDue l .bringUp = true ↔ out u.bringTimer)
      ∧ (t.isDue l .stop = true ↔ out u.stopTimer)
      ∧ (t.isDue l .ackDelay = true ↔ out u.ackTimer)
      ∧ (t.isDue l .replay = true ↔ ∃ d, u.replayTimer = .running d ∧ d.left = 0)
      ∧ (t.isDue l .renew = true ↔ out u.renewTimer)
      ∧ (t.isDue l .partnerEnd = true ↔ u.partnerTimer.left = 1 ∧ 256 ≤ u.partnerTimer.gone)

/-! ### The command register and the register window -/

/-- A write of CMD carries out the command its code names with its argument; any other code is answered
UNKNOWN; CMDST shows the result's code (R172, R173). A write by offset to a register with a row of its
own is that row's command (log 20). A write to a read-only or unassigned register, to CVAL, RPTQ or
DDATA is ignored, unassigned and write-only registers read 0 (R171), and SDEST and STAG take every write
without CMDST (R151, R174). -/
def Obligations.WindowWritesActByOffsetAndCode : Prop :=
  ∀ (s : State) (arg : Byte) (v : Word), s.resetLow = false →
    exec (.registerWrite 0x00 (wordOf arg 0x01)) s = exec (.laneEnable arg) s
    ∧ exec (.registerWrite 0x00 (wordOf arg 0x02)) s = exec (.laneStop arg) s
    ∧ exec (.registerWrite 0x00 (wordOf arg 0x03)) s = exec (.laneAbort arg) s
    ∧ exec (.registerWrite 0x00 (wordOf arg 0x10)) s = exec (.take arg) s
    ∧ exec (.registerWrite 0x00 (wordOf arg 0x11)) s = exec (.release arg) s
    ∧ exec (.registerWrite 0x00 (wordOf arg 0x20)) s = exec (.openSend arg) s
    ∧ exec (.registerWrite 0x00 (wordOf arg 0x21)) s = exec (.post arg) s
    ∧ exec (.registerWrite 0x00 (wordOf arg 0x22)) s = exec (.abandon arg) s
    ∧ exec (.registerWrite 0x00 (wordOf arg 0x30)) s = exec (.routeClear arg) s
    ∧ exec (.registerWrite 0x00 (wordOf arg 0x3F)) s = exec (.softReset arg) s
    ∧ (∀ code, code ∉ commandCodes →
        exec (.registerWrite 0x00 (wordOf arg code)) s = .next (s.refusedAs .unknown)
        ∧ exec (.unknownCommand code arg) s = .next (s.refusedAs .unknown))
    ∧ [CmdResult.none, .taken, .refusedState, .refusedBusy, .refusedArg, .refusedConfig,
        .refusedNoRecord, .refusedEmpty, .refusedCompose, .unknown].map
          (fun r => ({ s with cmdst := r }.readRegister .cmdst).toNat) = List.range 10
    ∧ (∀ o ∈ ignoredOffsets, exec (.registerWrite o v) s = .next s)
    ∧ exec (.registerWrite 0x42 v) s = exec (.rtentWrite v) s
    ∧ exec (.registerWrite 0x5E v) s = exec (.sdataWrite v) s
    ∧ exec (.registerWrite 0x64 v) s = exec (.evpendWrite v) s
    ∧ exec (.registerWrite 0x66 v) s = exec (.evenWrite v) s
    ∧ exec (.registerWrite 0x68 v) s = exec (.cselWrite v) s
    ∧ s.readRegister .unassigned = 0 ∧ s.readRegister .cmd = 0 ∧ s.readRegister .sdata = 0
    ∧ exec (.registerWrite 0x56 v) s = .next { s with sdest := loByte v }
    ∧ exec (.registerWrite 0x5A v) s = .next { s with stag := v }
    ∧ (s.readRegister .sdest).toNat = s.sdest.toNat ∧ s.readRegister .stag = s.stag

/-- STATION, HTIME, HRENEW, ACKDLY, RTMO, RLIM, BUPLIM and STOPTMO: a value out of range is refused with
REFUSED_ARG, a write with a lane that is not OFF with REFUSED_STATE, and a taken write changes that
register alone (R174, R175). -/
def Obligations.SharedSettingsLockedByBothLanes : Prop :=
  ∀ e ∈ sharedSettings, ∀ (s : State) (v : Word), s.resetLow = false →
    (¬Within e.2.1 e.2.2 v → exec (.registerWrite e.1 v) s = .next (s.refusedAs .refusedArg))
    ∧ (Within e.2.1 e.2.2 v → ¬(s.laneW.state = .off ∧ s.laneE.state = .off) →
        exec (.registerWrite e.1 v) s = .next (s.refusedAs .refusedState))
    ∧ (Within e.2.1 e.2.2 v → s.laneW.state = .off → s.laneE.state = .off →
        ∃ t, exec (.registerWrite e.1 v) s = .next t
          ∧ t.readRegister (RegName.ofOffset e.1) = v
          ∧ (∀ r, r ≠ RegName.ofOffset e.1 → r ≠ .cmdst → t.readRegister r = s.readRegister r)
          ∧ t = { s with cfg := t.cfg, cmdst := .taken })

/-- LCFG, CAP, HSTD, HALL and HREL of a lane: refused out of range, refused while the lane is not OFF,
a CAP below the intake refused with REFUSED_STATE (R33), and otherwise taken alone (R174, R175). -/
def Obligations.LaneSettingsLockedByTheirLane : Prop :=
  ∀ e ∈ laneSettings, ∀ (s : State) (v : Word), s.resetLow = false →
    let l := e.1
    let o := e.2.1
    let range := Within e.2.2.1 e.2.2.2 v
    let fits := (o = 0x12 ∨ o = 0x14) → (s.lane l).intake ≤ v.toNat
    (¬range → exec (.registerWrite o v) s = .next (s.refusedAs .refusedArg))
    ∧ (range → ¬((s.lane l).state = .off ∧ fits) →
        exec (.registerWrite o v) s = .next (s.refusedAs .refusedState))
    ∧ (range → (s.lane l).state = .off → fits →
        ∃ t, exec (.registerWrite o v) s = .next t
          ∧ t.readRegister (RegName.ofOffset o) = v
          ∧ (∀ r, r ≠ RegName.ofOffset o → r ≠ .cmdst → t.readRegister r = s.readRegister r)
          ∧ t = { s with cfg := t.cfg, cmdst := .taken })

/-- GROUPS, XRATIO, XRES, LALLOW, PALARM, FDEPTH and SCTL are written in every lane state, LALLOW not
below the local count (R33), and DDEPTH with both fields in 1 to 128 (R135, R174, R175). -/
def Obligations.FreeSettingsWrittenInEveryState : Prop :=
  (∀ e ∈ freeSettings, ∀ (s : State) (v : Word), s.resetLow = false →
    let range := Within e.2.1 e.2.2 v
    let fits := e.1 = 0x34 → s.localCount ≤ v.toNat
    (¬range → exec (.registerWrite e.1 v) s = .next (s.refusedAs .refusedArg))
    ∧ (range → ¬fits → exec (.registerWrite e.1 v) s = .next (s.refusedAs .refusedState))
    ∧ (range → fits →
        ∃ t, exec (.registerWrite e.1 v) s = .next t
          ∧ t.readRegister (RegName.ofOffset e.1) = v
          ∧ (∀ r, r ≠ RegName.ofOffset e.1 → r ≠ .cmdst → t.readRegister r = s.readRegister r)
          ∧ t = { s with cfg := t.cfg, sctl := t.sctl, cmdst := .taken }))
  ∧ ∀ (s : State) (v : Word), s.resetLow = false →
    let range := (1 ≤ (loByte v).toNat ∧ (loByte v).toNat ≤ 128)
      ∧ 1 ≤ (hiByte v).toNat ∧ (hiByte v).toNat ≤ 128
    (¬range → exec (.registerWrite 0x44 v) s = .next (s.refusedAs .refusedArg))
    ∧ (range → exec (.registerWrite 0x44 v) s =
        .next { s with cfg := { s.cfg with ddepth := v }, cmdst := .taken })

/-! ### Events and counters -/

/-- The thirteen causes have the bits 0 to 12, in the order of R160's table; a raise sets the flag of its
cause and no other (R161). EVPEND reads the pending set in bits 12:0 and 0 above; a write clears exactly the flags written as 1,
is never refused and changes nothing else (R162). EVEN reads the enable set; a write with bits 15:13
clear replaces it and leaves the pending set; any other is refused with REFUSED_ARG (R164). INT# is low
exactly when a cause is both pending and enabled, from the moment of the write (R165). -/
def Obligations.EventRegistersReadAndWritten : Prop :=
  [Cause.dlvX, .dlvS, .rpt, .rptOvf, .lane .W, .lane .E, .bring .W, .bring .E, .held .W, .held .E,
    .poolLow, .countHalf, .cmdRefused].map Cause.bit = List.range 13
  ∧ (∀ (s : State) (c x : Cause), (raise c s).isPending x = (s.isPending x || x == c)
      ∧ raise c s = { s with evPend := (raise c s).evPend })
  ∧ ∀ (s : State) (v : Word), s.resetLow = false →
    (∀ c : Cause, (s.readRegister .evpend).getLsbD c.bit = s.isPending c)
    ∧ (s.readRegister .evpend).extractLsb' 13 3 = 0
    ∧ (∃ t, exec (.evpendWrite v) s = .next t
      ∧ (∀ c : Cause, t.isPending c = (s.isPending c && !v.getLsbD c.bit))
      ∧ (intLow t = true ↔
          ∃ c : Cause, s.isPending c = true ∧ v.getLsbD c.bit = false ∧ s.isEnabled c = true)
      ∧ t = { s with evPend := t.evPend })
    ∧ (∀ c : Cause, (s.readRegister .even).getLsbD c.bit = s.isEnabled c)
    ∧ (s.readRegister .even).extractLsb' 13 3 = 0
    ∧ (intLow s = true ↔ ∃ c : Cause, s.isPending c = true ∧ s.isEnabled c = true)
    ∧ (v.extractLsb' 13 3 ≠ 0 → exec (.evenWrite v) s = .next (s.refusedAs .refusedArg))
    ∧ (v.extractLsb' 13 3 = 0 → ∃ t, exec (.evenWrite v) s = .next t
        ∧ (∀ c : Cause, t.isEnabled c = v.getLsbD c.bit)
        ∧ (intLow t = true ↔ ∃ c : Cause, s.isPending c = true ∧ v.getLsbD c.bit = true)
        ∧ t = { s with evEnable := t.evEnable, cmdst := .taken })

/-- The 22 counters of Lane W have the indices 0 to 21 in the order of R166's table, those of Lane E 22 to
43 in the same order, and the chip-wide ones 44 to 47. CSEL takes 0 to 47 and selects the counter that CVAL reads; a read of CVAL returns that counter and
sets it to 0, and nothing else (R168). An increment raises its counter by 1 and no other; at 65535 it
changes nothing; COUNT_HALF is raised by the increment that reaches 32768 and by no other (R167). -/
def Obligations.CountersReadClearedAndSaturating : Prop :=
  let ofLane (l : Lane) : List Counter :=
    [LaneCounter.rxAccepted, .rxBad, .rxAborted, .rxDup, .rxGap, .rxOverrun, .rxMalformed,
      .rxStripped, .txParcels, .txResends, .laneFailures, .replayRx, .replayTx, .ackStray, .holdTx,
      .holdRx, .wordBad, .fwdHopExpired, .fwdNoLane, .fwdFull, .fwdFlushed, .bringupFaults].map
      (.ofLane l)
  (ofLane .W ++ ofLane .E
    ++ [Counter.dlvFull .express, .dlvFull .standard, .routeDiscard, .reportLost]).map Counter.index
      = List.finRange 48
  ∧ (∀ (s : State) (c : Counter), s.counter c = s.counters[c.index])
  ∧ ∀ s : State,
    (∀ v : Word, s.resetLow = false →
      (47 < v.toNat → exec (.cselWrite v) s = .next (s.refusedAs .refusedArg))
      ∧ (v.toNat ≤ 47 → ∃ t, exec (.cselWrite v) s = .next t ∧ t.csel.val = v.toNat
          ∧ t = { s with csel := t.csel, cmdst := .taken })
      ∧ (s.readRegister .csel).toNat = s.csel.val
      ∧ s.readRegister .cval = s.counters[s.csel]
      ∧ exec (.registerWrite 0x6A v) s = .next s
      ∧ ∃ t, exec .cvalRead s = .next t ∧ t.busOut = s.counters[s.csel]
        ∧ t.counters[s.csel] = 0 ∧ (∀ k : Fin 48, k ≠ s.csel → t.counters[k] = s.counters[k])
        ∧ t = { s with busOut := t.busOut, counters := t.counters })
    ∧ ∀ c : Counter,
      (s.counter c = 65535 → bump c s = s)
      ∧ (s.counter c ≠ 65535 →
          (bump c s).counter c = s.counter c + 1
          ∧ (∀ k : Fin 48, k ≠ c.index → (bump c s).counters[k] = s.counters[k])
          ∧ (∀ x : Cause, (bump c s).isPending x =
              (s.isPending x || (x == .countHalf && s.counter c == 32767)))
          ∧ bump c s = { s with counters := (bump c s).counters, evPend := (bump c s).evPend })

/-! ### The route table -/

/-- RTIDX takes 0 to 31; a write of RTENT empties the selected entry, fills it, or is refused, by the
table of R72; a read of RTENT returns the selected entry (R72, R174, R178). ROUTE CLEAR is taken in
every state and empties every entry, RTIDX kept; pin reset empties every entry; SOFT RESET keeps the
table and sets RTIDX to 0 (R73). -/
def Obligations.RouteTableWrittenAndCleared : Prop :=
  State.reset.rtidx = 0 ∧ ∀ (s : State) (v : Word), s.resetLow = false →
    let id := loByte v
    let action := v.extractLsb' 8 2
    let high := v.extractLsb' 10 6
    let elsewhere := ∃ (i : Fin 32) (e : RouteEntry), i ≠ s.rtidx ∧ s.routes[i] = some e
      ∧ e.station = id
    (31 < v.toNat → exec (.registerWrite 0x40 v) s = .next (s.refusedAs .refusedArg))
    ∧ (v.toNat ≤ 31 → ∃ t, exec (.registerWrite 0x40 v) s = .next t ∧ t.rtidx.val = v.toNat
        ∧ t = { s with rtidx := t.rtidx, cmdst := .taken })
    ∧ ((high ≠ 0 ∨ 240 ≤ id.toNat ∨ (id ≠ 0 ∧ action = 3) ∨ (id ≠ 0 ∧ elsewhere)) →
        exec (.rtentWrite v) s = .next (s.refusedAs .refusedArg))
    ∧ (high = 0 → id = 0 →
        exec (.rtentWrite v) s =
          .next { s with routes := s.routes.set s.rtidx none, cmdst := .taken })
    ∧ (∀ a : RouteAction, high = 0 → id ≠ 0 → id.toNat ≤ 239 → ¬elsewhere →
        action.toNat = (match a with | .forward => 0 | .adopt => 1 | .discard => 2) →
        exec (.rtentWrite v) s =
          .next { s with routes := s.routes.set s.rtidx (some ⟨id, a⟩), cmdst := .taken })
    ∧ (s.routes[s.rtidx] = none → s.readRegister .rtent = 0)
    ∧ (∀ e, s.routes[s.rtidx] = some e →
        (s.readRegister .rtent).toNat = e.station.toNat
          + 256 * (match e.action with | .forward => 0 | .adopt => 1 | .discard => 2))
    ∧ (∀ arg, ∃ t, exec (.routeClear arg) s = .next t ∧ (∀ i : Fin 32, t.routes[i] = none)
      ∧ t = { s with routes := t.routes, cmdst := .taken })
    ∧ (∃ t, exec .pinReset s = .next t ∧ ∀ i : Fin 32, t.routes[i] = none)
    ∧ ∀ arg, ∃ t, exec (.softReset arg) s = .next t ∧ t.routes = s.routes ∧ t.rtidx = 0

/-! ### Local delivery -/

/-- TAKE is decided in the order of R136 and moves the head of the chosen queue into the open slot
(R137). -/
def Obligations.TakeDecidedInOrder : Prop :=
  ∀ (s : State) (arg : Byte), s.resetLow = false →
    (2 < arg.toNat → exec (.take arg) s = .next (s.refusedAs .refusedArg))
    ∧ (arg.toNat ≤ 2 → s.slot ≠ none → exec (.take arg) s = .next (s.refusedAs .refusedBusy))
    ∧ (s.slot = none →
        ((arg = 0 ∧ s.dqX = []) ∨ (arg = 1 ∧ s.dqS = []) ∨ (arg = 2 ∧ s.dqX = [] ∧ s.dqS = [])) →
        exec (.take arg) s = .next (s.refusedAs .refusedEmpty))
    ∧ (∀ h q, s.slot = none → s.dqX = h :: q → (arg = 0 ∨ arg = 2) →
        exec (.take arg) s = .next { s with
          slot := some h, dqX := q, readPos := 0, readPast := false, cmdst := .taken })
    ∧ (∀ h q, s.slot = none → s.dqS = h :: q → (arg = 1 ∨ (arg = 2 ∧ s.dqX = [])) →
        exec (.take arg) s = .next { s with
          slot := some h, dqS := q, readPos := 0, readPast := false, cmdst := .taken })

/-- DH0 to DH3 show the fields of the open record in the places of R178, and 0 while no parcel is
open (R138; log 25). -/
def Obligations.HeadViewShowsOpenRecord : Prop :=
  ∀ s : State, s.resetLow = false →
    (s.slot = none → ∀ r ∈ [RegName.dh0, .dh1, .dh2, .dh3], s.readRegister r = 0)
    ∧ ∀ (h : Handle) (l : Lane), s.slot = some h → (s.record h).arrival = some (.fromLane l) →
        (s.record h).length ≤ 512 →
      let r := s.record h
      let d := s.readRegister .dh0
      d.getLsbD 15 = true ∧ d.getLsbD 14 = s.readPast ∧ d.getLsbD 13 = (r.cls == .express)
      ∧ d.getLsbD 12 = (l == .E) ∧ d.extractLsb' 8 4 = r.hop ∧ d.getLsbD 7 = false
      ∧ (d.extractLsb' 0 7).toNat = h.val
      ∧ loByte (s.readRegister .dh1) = r.dest ∧ hiByte (s.readRegister .dh1) = r.origin
      ∧ s.readRegister .dh2 = r.tag ∧ (s.readRegister .dh3).toNat = r.length

/-- A read of DDATA at read position p returns payload bytes p and p + 1, the last one alone in the low
byte, or 0 with the read-past flag set; so the k-th read after a TAKE returns bytes 2k - 2 and 2k - 1,
and 0 once all is read, and changes nothing but the read position and that flag (R139). With no parcel
open a read returns 0 and is answered REFUSED_STATE (R140; log 15). -/
def Obligations.ParcelReadWholeInOrder : Prop :=
  ∀ s : State, s.resetLow = false →
    (s.slot = none → exec .ddataRead s = .next { s.refusedAs .refusedState with busOut := 0 })
    ∧ (∀ h, s.slot = some h →
      let r := s.record h
      let p := s.readPos
      (p + 2 ≤ r.length → exec .ddataRead s = .next { s with
          busOut := wordOf (s.payloadByte r (p + 1)) (s.payloadByte r p), readPos := p + 2 })
      ∧ (p + 1 = r.length → exec .ddataRead s = .next { s with
          busOut := wordOf 0 (s.payloadByte r p), readPos := r.length })
      ∧ (p = r.length → exec .ddataRead s = .next { s with busOut := 0, readPast := true }))
    ∧ ∀ (h : Handle) (k : Nat), s.slot = some h → s.readPos = 0 → s.readPast = false →
      let r := s.record h
      let n := r.length
      let b := s.payloadByte r
      ∃ t, Host.Core.run Sys2Proof.core k { s with pending := List.replicate k .ddataRead } = .next t
        ∧ t.busOut = (if k = 0 then s.busOut
            else if 2 * k ≤ n then wordOf (b (2 * k - 1)) (b (2 * k - 2))
            else if 2 * k = n + 1 then wordOf 0 (b (n - 1))
            else 0)
        ∧ t.readPos = min (2 * k) n ∧ t.readPast = decide ((n + 1) / 2 < k)
        ∧ t = { s with
            pending := [], busOut := t.busOut, readPos := t.readPos, readPast := t.readPast }

/-- RELEASE with no parcel open is refused with REFUSED_STATE; otherwise it empties the slot and drops
its reference: a record with another holder keeps one, and the last drop frees it, its cells going to
the tail of the free list and its arrival lane's intake falling by their number (R26, R141; no cells are
no change of intake, log 13). -/
def Obligations.ReleaseDropsReference : Prop :=
  ∀ (s : State) (arg : Byte), s.resetLow = false →
    (s.slot = none → exec (.release arg) s = .next (s.refusedAs .refusedState))
    ∧ ∀ h, s.slot = some h →
      let r := s.record h
      let closed := { s with slot := none, readPos := 0, readPast := false, cmdst := .taken }
      (2 ≤ r.refs → exec (.release arg) s =
        .next { closed with records := s.records.set h { r with refs := r.refs - 1 } })
      ∧ ∀ l, r.refs = 1 → r.arrival = some (.fromLane l) → r.chain.length ≤ (s.lane l).intake →
        let freed := { closed with
          records := s.records.set h Record.cleared, freeList := s.freeList ++ r.chain }
        (r.chain = [] → exec (.release arg) s = .next freed)
        ∧ (r.chain ≠ [] → exec (.release arg) s = .next (freed.setLane l
            (LaneUnit.intakeTo s.cfg (s.cfg.lane l) ((s.lane l).intake - r.chain.length)
              (s.lane l))))

/-- LSTAT, NBR, FREE, INTAKE, LOCALC, DQLEN, SHND, SLEN, RPTN and RLIST show the state they are read
from, in the places of R178 (R19, R27, R28, R57, R89, R146). -/
def Obligations.StatusRegistersShowTheirFields : Prop :=
  ∀ s : State, s.resetLow = false →
    (∀ l : Lane,
      let u := s.lane l
      let v := s.readRegister (.lstat l)
      (v.extractLsb' 0 3).toNat = (match u.state with
        | .off => 0 | .seek => 1 | .agree => 2 | .up => 3 | .stopping => 4)
      ∧ v.getLsbD 3 = false
      ∧ (v.extractLsb' 4 2).toNat = (match u.agreed with
        | none => 0 | some .r4 => 1 | some .r8 => 2 | some .r16 => 3)
      ∧ v.getLsbD 6 = u.holdUse ∧ v.getLsbD 7 = false
      ∧ v.getLsbD 8 = decide (0 < u.partnerTimer.left)
      ∧ v.getLsbD 9 = (decide (0 < u.partnerTimer.left) && u.partnerScope == .standard)
      ∧ v.extractLsb' 10 2 = 0
      ∧ (v.extractLsb' 12 2).toNat = (match u.lastFault with
        | .none => 0 | .timeout => 1 | .mismatch => 2 | .duplicate => 3)
      ∧ v.extractLsb' 14 2 = 0
      ∧ (u.intake ≤ 1024 → (s.readRegister (.intake l)).toNat = u.intake))
    ∧ loByte (s.readRegister .nbr) = (match s.laneW.neighbour with | some g => g.station | none => 0)
    ∧ hiByte (s.readRegister .nbr) = (match s.laneE.neighbour with | some g => g.station | none => 0)
    ∧ (s.freeList.length ≤ 1024 → (s.readRegister .free).toNat = s.freeList.length)
    ∧ (s.localCount ≤ 1024 → (s.readRegister .localc).toNat = s.localCount)
    ∧ (s.dqX.length ≤ 128 → s.dqS.length ≤ 128 →
        (loByte (s.readRegister .dqlen)).toNat = s.dqX.length
        ∧ (hiByte (s.readRegister .dqlen)).toNat = s.dqS.length)
    ∧ (s.laneW.replay.length ≤ 32 → s.laneE.replay.length ≤ 32 →
        (loByte (s.readRegister .rlist)).toNat = s.laneW.replay.length
        ∧ (hiByte (s.readRegister .rlist)).toNat = s.laneE.replay.length)
    ∧ (s.reports.length ≤ 32 → (s.readRegister .rptn).toNat = s.reports.length)
    ∧ (s.composeLen ≤ 512 → (s.readRegister .slen).toNat = s.composeLen)
    ∧ ((s.readRegister .shnd).extractLsb' 0 7).toNat = s.composeHandle.val
    ∧ (s.readRegister .shnd).getLsbD 8 = s.noCells ∧ (s.readRegister .shnd).getLsbD 9 = s.tooLong
    ∧ (s.readRegister .shnd).getLsbD 15 = s.composeOpen

/-! ### Local sending -/

/-- OPEN SEND is refused while a compose is open or no record is FREE, and otherwise makes the
lowest-numbered FREE record the compose record (R147); ABANDON is refused with no compose open, and
otherwise returns the compose record's cells in chain order and frees it (R154). -/
def Obligations.ComposeOpensAndIsAbandoned : Prop :=
  ∀ (s : State) (arg : Byte), s.resetLow = false →
    (s.composeOpen = true → exec (.openSend arg) s = .next (s.refusedAs .refusedBusy))
    ∧ (s.composeOpen = false → (∀ h, (s.record h).isFree = false) →
        exec (.openSend arg) s = .next (s.refusedAs .refusedNoRecord))
    ∧ (∀ h, s.composeOpen = false → (s.record h).isFree = true →
        (∀ k < h, (s.record k).isFree = false) →
        exec (.openSend arg) s = .next { s with
          records := s.records.set h
            { Record.cleared with arrival := some .ofHost, compose := true }
          composeOpen := true, composeHandle := h, composeLen := 0, noCells := false
          tooLong := false, cmdst := .taken })
    ∧ (s.composeOpen = false → exec (.abandon arg) s = .next (s.refusedAs .refusedState))
    ∧ (s.composeOpen = true → (s.record s.composeHandle).arrival = some .ofHost →
        let chain := (s.record s.composeHandle).chain
        exec (.abandon arg) s = .next { s with
          records := s.records.set s.composeHandle Record.cleared
          freeList := s.freeList ++ chain, localCount := s.localCount - chain.length
          composeOpen := false, composeLen := 0, noCells := false, tooLong := false
          cmdst := .taken })

/-- A write of SDATA stores its two bytes at the next two offsets, taking a cell at each multiple of 64;
a refused cell sets NO_CELLS, the 257th write TOO_LONG; with an error set it is dropped, and with no
compose open answered REFUSED_STATE. No other byte of the cells changes (R148 to R150). -/
def Obligations.SdataStoresTwoBytes : Prop :=
  ∀ (s : State) (v : Word), s.resetLow = false →
    (s.composeOpen = false → exec (.sdataWrite v) s = .next (s.refusedAs .refusedState))
    ∧ (s.composeOpen = true → (s.noCells = true ∨ s.tooLong = true) →
        exec (.sdataWrite v) s = .next s)
    ∧ (s.composeOpen = true → s.noCells = false → s.tooLong = false → s.composeLen % 2 = 0 →
        s.mem.wf = true →
        let n := s.composeLen
        let ask := s.requestCell .ofHost (if s.sctl.getLsbD 4 then .express else .standard)
        let stored (c : CellNo) (t : State) : Prop :=
          t.mem.wf = true ∧ ∀ a, t.mem.read a =
            if a = 64 * c.val + n % 64 then loByte v
            else if a = 64 * c.val + n % 64 + 1 then hiByte v
            else s.mem.read a
        (n = 512 → exec (.sdataWrite v) s = .next { s with tooLong := true })
        ∧ (n < 512 → n % 64 = 0 → ask = none →
            exec (.sdataWrite v) s = .next { s with noCells := true })
        ∧ (∀ c s', n < 512 → n % 64 = 0 → ask = some (c, s') →
            let r := s.record s.composeHandle
            ∃ t, exec (.sdataWrite v) s = .next t ∧ stored c t
              ∧ t = { s' with
                  mem := t.mem, composeLen := n + 2
                  records := s.records.set s.composeHandle { r with chain := r.chain ++ [c] } })
        ∧ (∀ c, n < 512 → n % 64 ≠ 0 → (s.record s.composeHandle).chain.getLast? = some c →
            ∃ t, exec (.sdataWrite v) s = .next t ∧ stored c t
              ∧ t = { s with mem := t.mem, composeLen := n + 2 }))

/-- POST checks its conditions in the order of R152; a POST that passes them writes the record's header,
gives it one reference for each selected lane, appends it to the send queue of its class on each of
them, and closes the compose (R152, R153). -/
def Obligations.PostCheckedInOrderAndQueued : Prop :=
  ∀ (s : State) (arg : Byte), s.resetLow = false →
    let w := s.sctl.getLsbD 5
    let e := s.sctl.getLsbD 6
    let errors := s.noCells = true ∨ s.tooLong = true
    let badArg := s.sdest = 0 ∨ s.sdest.toNat = s.cfg.station.toNat ∨ (w = false ∧ e = false)
    let badLane (l : Lane) := (s.lane l).state = .off ∨ (s.lane l).state = .stopping
    let badState := (w = true ∧ badLane .W) ∨ (e = true ∧ badLane .E)
    (s.composeOpen = false → exec (.post arg) s = .next (s.refusedAs .refusedState))
    ∧ (s.composeOpen = true → errors → exec (.post arg) s = .next (s.refusedAs .refusedCompose))
    ∧ (s.composeOpen = true → ¬errors → badArg →
        exec (.post arg) s = .next (s.refusedAs .refusedArg))
    ∧ (s.composeOpen = true → ¬errors → ¬badArg → badState →
        exec (.post arg) s = .next (s.refusedAs .refusedState))
    ∧ (s.composeOpen = true → ¬errors → ¬badArg → ¬badState →
        let h := s.composeHandle
        let n := s.composeLen
        let cls : TrafficClass := if s.sctl.getLsbD 4 then .express else .standard
        let join (u : LaneUnit) : LaneUnit :=
          if s.sctl.getLsbD 4 then { u with sendX := u.sendX ++ [h] }
          else { u with sendS := u.sendS ++ [h] }
        exec (.post arg) s = .next { s with
          records := s.records.set h { s.record h with
            cls := cls, dest := s.sdest, origin := loByte s.cfg.station
            hop := s.sctl.extractLsb' 0 4, tag := s.stag
            length := if arg.getLsbD 0 = true ∧ 0 < n then n - 1 else n
            refs := w.toNat + e.toNat, compose := false }
          laneW := if w then join s.laneW else s.laneW
          laneE := if e then join s.laneE else s.laneE
          composeOpen := false, composeLen := 0, cmdst := .taken })

/-- A report joins the queue with RPT while it holds fewer than 32, and is dropped with RPT_OVF and
REPORT_LOST otherwise (R156); a read of RPTQ removes the oldest report and returns it in the places of
R179, or returns 0 and changes nothing (R157). -/
def Obligations.ReportsQueueAndAreRead : Prop :=
  ∀ s : State, s.resetLow = false →
    (∀ r : Report,
      (s.reports.length < 32 →
        s.takeReport r = raise .rpt { s with reports := s.reports ++ [r] })
      ∧ (32 ≤ s.reports.length → s.takeReport r = bump .reportLost (raise .rptOvf s)))
    ∧ (s.reports.length ≤ 32 → (s.readRegister .rptn).toNat = s.reports.length)
    ∧ (s.reports = [] → exec .rptqRead s = .next { s with busOut := 0 })
    ∧ ∀ r rs, s.reports = r :: rs → r.resends ≤ 15 →
      ∃ t, exec .rptqRead s = .next t ∧ t = { s with busOut := t.busOut, reports := rs }
        ∧ t.busOut.getLsbD 15 = true
        ∧ (t.busOut.extractLsb' 13 2).toNat = (match r.status with
          | .done => 1 | .lost => 2 | .cancelled => 3)
        ∧ t.busOut.getLsbD 12 = (r.lane == .E)
        ∧ (t.busOut.extractLsb' 8 4).toNat = r.resends ∧ t.busOut.getLsbD 7 = false
        ∧ (t.busOut.extractLsb' 0 7).toNat = r.handle.val

/-! ### The pool -/

/-- A cell request is refused by the checks of R29, and a grant takes the head of the free list, raises
the requester's count, and raises POOL_LOW exactly when the free count comes from above PALARM to at or
below it (R18, R27, R28, R29, R34). -/
def Obligations.CellRequestCheckedAndGranted : Prop :=
  ∀ (s : State) (a : Arrival) (c : TrafficClass),
    let free := s.freeList.length
    let alarm := s.cfg.palarm.toNat
    let room := match a with
      | .fromLane l => (s.lane l).intake + 1 ≤ (s.cfg.lane l).cap.toNat
      | .ofHost => s.localCount + 1 ≤ s.cfg.lallow.toNat
    let admitted := 0 < free ∧ (s.cfg.xres.toNat < free ∨ c = .express) ∧ room
    (¬admitted → s.requestCell a c = none)
    ∧ (admitted → ∃ n rest t, s.freeList = n :: rest ∧ s.requestCell a c = some (n, t)
        ∧ (∀ x : Cause, t.isPending x =
            (s.isPending x || (x == .poolLow && decide (rest.length ≤ alarm ∧ alarm < free))))
        ∧ match a with
          | .ofHost =>
            t = { s with freeList := rest, evPend := t.evPend, localCount := s.localCount + 1 }
          | .fromLane l =>
            t = { s.setLane l (LaneUnit.intakeTo s.cfg (s.cfg.lane l) ((s.lane l).intake + 1)
                (s.lane l)) with freeList := rest, evPend := t.evPend })

/-- A change of a lane's intake is judged at once by its hold unit, by the table of R105 on a lane that
carries traffic with hold use, and by its receiver, whose owed replay is released at or below HREL
(R86); both requests can come from one change (R116). -/
def Obligations.IntakeChangeMovesHoldAndOwedReplay : Prop :=
  ∀ (c : Settings) (m : LaneSettings) (n : Nat) (u : LaneUnit),
    let v := LaneUnit.intakeTo c m n u
    let watch := (u.state = .up ∨ u.state = .stopping) ∧ u.holdUse = true
    let time := c.htime.setWidth 12
    let release := watch ∧ u.ownHold ≠ .clear ∧ n ≤ m.hrel.toNat
    let toAll := watch ∧ u.ownHold ≠ .holdAll ∧ m.hall.toNat ≤ n
    let toStd := watch ∧ u.ownHold = .clear ∧ m.hstd.toNat ≤ n ∧ n < m.hall.toNat
    m.hrel.toNat < m.hall.toNat →
    v = { u with
      intake := n
      ownHold := if toAll then .holdAll else if toStd then .holdStd
        else if release then .clear else u.ownHold
      pendHold := if toAll then some ⟨.all, time⟩ else if toStd then some ⟨.standard, time⟩
        else if release then some ⟨.all, 0⟩ else u.pendHold
      renewTimer := if ¬toAll ∧ ¬toStd ∧ release then none else u.renewTimer
      replayOwed := u.replayOwed && decide (m.hrel.toNat < n)
      replayRequested := u.replayRequested || (u.replayOwed && decide (n ≤ m.hrel.toNat))
      pendReplay := if u.replayOwed = true ∧ n ≤ m.hrel.toNat then some u.expected
        else u.pendReplay }

/-! ### What travels on the line -/

/-- A link word goes out as SOW, kind, argument, value high byte, value low byte and check, each field in
the place R177 gives it; a word is bad exactly in the cases of R12, and any other is read field by field
from the same places, what R177 marks as not examined or ignored left aside; so the four kinds come back
from their five bytes. The check of the nine test bytes is 0xF4, and a sequence of bytes with its check
behind it has the check 0 (R10 to R12, R177). -/
def Obligations.LinkWordsSurviveTheWire : Prop :=
  (∀ w : LinkWord, w.symbols = .sow :: w.bytes.map .data
    ∧ w.bytes = w.bytes.take 4 ++ [crc8 (w.bytes.take 4)]
    ∧ w.bytes.take 4 = (match w with
      | .ack q => [0x11, 0, 0, BitVec.ofNat 8 q.toNat]
      | .replay q => [0x12, 0, 0, BitVec.ofNat 8 q.toNat]
      | .hold scope t => [0x13, (match scope with | .all => 1 | .standard => 2),
          BitVec.ofNat 8 (t.toNat / 256), BitVec.ofNat 8 (t.toNat % 256)]
      | .greet g => [0x14, BitVec.ofNat 8 (g.ack.toNat + 2 * g.hold.toNat), g.station,
          BitVec.ofNat 8 g.rates.toNat]))
  ∧ (∀ a hi lo : Byte,
      let value := 256 * hi.toNat + lo.toNat
      let judged (k : Byte) := judgeWord [k, a, hi, lo, crc8 [k, a, hi, lo]]
      (value ≤ 63 → judged 0x11 = some (.ack (BitVec.ofNat 6 value))
        ∧ judged 0x12 = some (.replay (BitVec.ofNat 6 value)))
      ∧ (value ≤ 4095 → a = 1 → judged 0x13 = some (.hold .all (BitVec.ofNat 12 value)))
      ∧ (value ≤ 4095 → a = 2 → judged 0x13 = some (.hold .standard (BitVec.ofNat 12 value)))
      ∧ (1 ≤ hi.toNat → hi.toNat ≤ 239 → judged 0x14 = some (.greet
          { ack := a.getLsbD 0, hold := a.getLsbD 1, station := hi
            rates := BitVec.ofNat 3 (lo.toNat % 8) })))
  ∧ (∀ w : LinkWord, (∀ g, w = .greet g → 1 ≤ g.station.toNat ∧ g.station.toNat ≤ 239) →
    w.bytes.length = 5 ∧ judgeWord w.bytes = some w)
  ∧ (∀ k a hi lo c : Byte,
      judgeWord [k, a, hi, lo, c] = none ↔
        c ≠ crc8 [k, a, hi, lo] ∨ (k ≠ 0x11 ∧ k ≠ 0x12 ∧ k ≠ 0x13 ∧ k ≠ 0x14)
        ∨ ((k = 0x11 ∨ k = 0x12) ∧ 63 < (wordOf hi lo).toNat)
        ∨ (k = 0x13 ∧ ((a ≠ 1 ∧ a ≠ 2) ∨ 4095 < (wordOf hi lo).toNat))
        ∨ (k = 0x14 ∧ ¬(1 ≤ hi.toNat ∧ hi.toNat ≤ 239)))
  ∧ crc8 [0x31, 0x32, 0x33, 0x34, 0x35, 0x36, 0x37, 0x38, 0x39] = 0xF4
  ∧ ∀ bs : List Byte, crc8 (bs ++ [crc8 bs]) = 0

/-- A header with a 10-bit length is 8 bytes with each field in the place R176 gives it, the other bits
0; any 8 bytes are read field by field from the same places, those bits ignored; so every header comes
back from its bytes. The check word of the nine test bytes is 0x29B1, and a sequence of bytes with its
check word behind it, high byte first, has the check word 0 (R6, R8, R176). -/
def Obligations.HeadersSurviveTheWire : Prop :=
  (∀ h : Header, h.length < 1024 → h.encode =
    [h.kind, BitVec.ofNat 8 ((match h.cls with | .express => 64 | .standard => 0) + h.seq.toNat),
      h.dest, h.origin, BitVec.ofNat 8 (h.tag.toNat / 256), BitVec.ofNat 8 (h.tag.toNat % 256),
      BitVec.ofNat 8 (16 * h.hop.toNat + h.length / 256), BitVec.ofNat 8 (h.length % 256)])
  ∧ (∀ b0 b1 b2 b3 b4 b5 b6 b7 : Byte, Header.decode [b0, b1, b2, b3, b4, b5, b6, b7] =
    { kind := b0, cls := if b1.getLsbD 6 then .express else .standard
      seq := BitVec.ofNat 6 (b1.toNat % 64), dest := b2, origin := b3
      tag := BitVec.ofNat 16 (256 * b4.toNat + b5.toNat), hop := BitVec.ofNat 4 (b6.toNat / 16)
      length := 256 * (b6.toNat % 4) + b7.toNat })
  ∧ (∀ h : Header, h.length < 1024 → h.encode.length = 8 ∧ Header.decode h.encode = h)
  ∧ crc16 [0x31, 0x32, 0x33, 0x34, 0x35, 0x36, 0x37, 0x38, 0x39] = 0x29B1
  ∧ ∀ bs : List Byte, crc16 (bs ++ [hiByte (crc16 bs), loByte (crc16 bs)]) = 0

/-! ### Bring-up -/

/-- LANE ENABLE: refused for a configuration that fails a check of R42; otherwise the lane leaves OFF for SEEK as R42 lists it, and
its line, with nothing left on it, begins an IDL symbol (R1, R4, R41 to R43). A lane that is not OFF
refuses it with REFUSED_STATE, and any other argument of the three lane commands is answered REFUSED_ARG
(R41, R173). That what a teardown left on the line stays there is log 9, and that the line and the quiet
interval begin afresh is log 26. -/
def Obligations.LaneEnableStartsSeek : Prop :=
  (∀ (s : State) (arg : Byte), s.resetLow = false → 2 ≤ arg.toNat →
    ∀ c ∈ [Instr.laneEnable arg, .laneStop arg, .laneAbort arg],
      exec c s = .next (s.refusedAs .refusedArg))
  ∧ ∀ (s : State) (l : Lane), s.resetLow = false →
    let u := s.lane l
    let m := s.cfg.lane l
    let fit := 1 ≤ s.cfg.station.toNat ∧ s.cfg.station.toNat ≤ 239 ∧ m.lcfg.getLsbD 0 = true
      ∧ m.hrel.toNat < m.hstd.toNat ∧ m.hstd.toNat ≤ m.hall.toNat
      ∧ m.hall.toNat + 8 ≤ m.cap.toNat ∧ s.cfg.hrenew.toNat < s.cfg.htime.toNat
    (u.state ≠ .off → exec (.laneEnable (laneArg l)) s = .next (s.refusedAs .refusedState))
    ∧ (u.state = .off → ¬fit →
        exec (.laneEnable (laneArg l)) s = .next (s.refusedAs .refusedConfig))
    ∧ (u.state = .off → fit → ∃ v, exec (.laneEnable (laneArg l)) s =
          .next { raise (.lane l) (s.setLane l v) with cmdst := .taken }
        ∧ v = { u with
            lastFault := .none, state := .seek, neighbour := none, identical := 0, sent := 0
            bringTimer := some (.load (s.cfg.buplim.toNat * 256)), pendGreet := true
            greetTimer := some (.load 16), framing := .between, quiet := .load 4
            signalLost := false, symGone := if u.txq = [] then 0 else u.symGone }
        ∧ v.rate = .r4 ∧ (u.txq = [] → v.lineNow = .symbol .idl ∧ v.lineRate = .r4))

/-- LANE STOP and LANE ABORT by the table of R41: a lane in OFF refuses both, a lane in STOPPING
answers LANE STOP with REFUSED_BUSY; LANE STOP in UP enters STOPPING with the stop timer loaded, or
ends in OFF at once if nothing is left to drain; every other one tears the lane down to OFF, without
LANE_FAILURES or BRING (R41, R51 to R55; log 8, log 9). -/
def Obligations.LaneStopAndAbortByState : Prop :=
  ∀ (s : State) (l : Lane), s.resetLow = false →
    let u := s.lane l
    let stop := exec (.laneStop (laneArg l)) s
    let abort := exec (.laneAbort (laneArg l)) s
    let done := { s with cmdst := .taken }
    (u.state = .off → stop = .next (s.refusedAs .refusedState)
      ∧ abort = .next (s.refusedAs .refusedState))
    ∧ (u.state = .stopping → stop = .next (s.refusedAs .refusedBusy))
    ∧ (u.state = .up → u.replay ≠ [] →
        stop = .next { raise (.lane l) (s.setLane l { u with
          state := .stopping, stopTimer := some (.load s.cfg.stoptmo.toNat) }) with cmdst := .taken })
    ∧ (u.state = .up → u.replay = [] → ∃ t, stop = .next t ∧ Stopped l .off done t)
    ∧ ((u.state = .seek ∨ u.state = .agree) → ∃ t, stop = .next t ∧ Stopped l .off done t)
    ∧ (u.state ≠ .off → ∃ t, abort = .next t ∧ Stopped l .off done t)

/-- Every way to a teardown ends what the lane holds in one order: the assembly's cells return; the acked
entries that leave with the unit cut, the rest of the replay list, the forward queues and, to OFF, the
send queues lose their references, with the reports DONE, LOST and CANCELLED of local records and one
FWD_FLUSHED for each forward entry. To OFF: LANE ABORT, LANE STOP with nothing to drain, and from
STOPPING the stop timer, loss of signal, a GREET and replay failure; to SEEK, from UP: the last three.
The drain is stated with the ACK and the end of a unit that complete it. Each report joins the queue with
RPT, or is dropped with RPT_OVF and counted in REPORT_LOST (R24, R39, R78, R98, R100, R129, R155, R156;
log 8, log 9). -/
def Obligations.TeardownReportsAndReturnsInOrder : Prop :=
  ∀ (s : State) (l : Lane),
    let u := s.lane l
    let ends (c : Instr) (g : Target) : Prop := ∃ t, exec c s = .next t ∧ EndedInOrder l g s t
    let held (k : TrafficClass) := 0 < u.partnerTimer.left ∧ (u.partnerScope = .all ∨ k = .standard)
    u.HoldsOnce → s.reports.length ≤ 32 →
    (s.resetLow = false → u.state ≠ .off → ends (.laneAbort (laneArg l)) .off)
    ∧ (s.resetLow = false →
        (u.state = .seek ∨ u.state = .agree ∨ (u.state = .up ∧ u.replay = [])) →
        ends (.laneStop (laneArg l)) .off)
    ∧ (u.state = .stopping → u.stopTimer ≠ none → ends (.stopTimerExpiry l) .off)
    ∧ ∀ g : Target,
      u.state = (match g with | .seek => LaneState.up | .off => LaneState.stopping) →
      (u.grace = none → u.signalLost = false → ends (.lossOfSignal l) g)
      ∧ (∀ w : Greet, (u.framing = .inParcel → u.asm.isOpen = false) →
          1 ≤ w.station.toNat → w.station.toNat ≤ 239 →
          ¬(g = .seek ∧ u.grace ≠ none ∧ w.ack = true ∧ u.neighbour = some w) →
          ends (.greetReceived l w) g)
      ∧ (∀ es e fs, u.unit = .none → u.pendHold = none → u.pendReplay = none → u.pendAck = none →
          u.pointer = some e.seq → u.replay = es ++ e :: fs → (∀ x ∈ es, x.seq ≠ e.seq) →
          ¬held e.cls → e.attempts = s.cfg.rlim.toNat → ends (.startOpportunity l) g)

/-- A valid GREET in SEEK with no assembly open: its own id is a DUPLICATE, no rate in common a
MISMATCH, and any other takes the lane to AGREE with itself as the first GREET received there (R44,
R50); a GREET with a station id outside 1 to 239 is bad (R12; log 6). -/
def Obligations.GreetInSeekJudged : Prop :=
  ∀ (s : State) (l : Lane) (g : Greet),
    let u := (s.lane l).between
    let valid := 1 ≤ g.station.toNat ∧ g.station.toNat ≤ 239
    let own := g.station.toNat = s.cfg.station.toNat
    let common := g.rates &&& (s.cfg.lane l).lcfg.extractLsb' 0 3
    let fault (f : BringFault) := raise (.bring l)
      (bump (.ofLane l .bringupFaults) (s.setLane l { u with lastFault := f }))
    (s.lane l).state = .seek → (s.lane l).asm.isOpen = false →
    (¬valid → exec (.greetReceived l g) s = .next (bump (.ofLane l .wordBad) (s.setLane l u)))
    ∧ (valid → own → exec (.greetReceived l g) s = .next (fault .duplicate))
    ∧ (valid → ¬own → common = 0 → exec (.greetReceived l g) s = .next (fault .mismatch))
    ∧ (valid → ¬own → common ≠ 0 → exec (.greetReceived l g) s =
        .next (raise (.lane l) (s.setLane l { u with
          state := .agree, neighbour := some g, identical := if g.ack then 1 else 0, sent := 0
          pendGreet := true, greetTimer := some (.load 16) })))

/-- A valid GREET in AGREE with no assembly open: DUPLICATE and MISMATCH return the lane to SEEK;
any other replaces the neighbour record and changes the identical count by the table of R45, and
with both counts at 2 the lane enters UP as R46 lists it, its hold evaluated as a change from CLEAR
(R45, R46, R50, R105; log 3, log 6, log 10). An IDL symbol on the line at the change of rate keeps what
has gone of it (log 29). -/
def Obligations.GreetInAgreeCountedOrUp : Prop :=
  ∀ (s : State) (l : Lane) (g : Greet),
    let u := (s.lane l).between
    let c := s.cfg
    let m := c.lane l
    let common := g.rates &&& m.lcfg.extractLsb' 0 3
    let own := g.station.toNat = c.station.toNat
    let seek (f : BringFault) := raise (.lane l) (raise (.bring l)
      (bump (.ofLane l .bringupFaults) (s.setLane l { u with
        lastFault := f, state := .seek, neighbour := none, identical := 0, sent := 0
        pendGreet := true, greetTimer := some (.load 16) })))
    let n := if g.ack = false then 0
      else if u.neighbour = some g then min (u.identical + 1) 255 else 1
    let uses := m.lcfg.getLsbD 3 && g.hold
    (s.lane l).state = .agree → (s.lane l).asm.isOpen = false →
    1 ≤ g.station.toNat → g.station.toNat ≤ 239 →
    (own → exec (.greetReceived l g) s = .next (seek .duplicate))
    ∧ (¬own → common = 0 → exec (.greetReceived l g) s = .next (seek .mismatch))
    ∧ (¬own → common ≠ 0 → ¬(2 ≤ n ∧ 2 ≤ u.sent) → exec (.greetReceived l g) s =
        .next (s.setLane l { u with identical := n, neighbour := some g }))
    ∧ (¬own → common ≠ 0 → 2 ≤ n → 2 ≤ u.sent → u.ownHold = .clear →
        ∃ v, exec (.greetReceived l g) s = .next (raise (.lane l) (s.setLane l v))
          ∧ v = { u with
              identical := n, neighbour := some g, state := .up
              agreed := if common.getLsbD 2 then some .r16
                else if common.getLsbD 1 then some .r8 else some .r4
              holdUse := uses, bringTimer := none, greetTimer := none, pendGreet := false
              grace := some (.load 8)
              ownHold := if uses = true ∧ m.hall.toNat ≤ u.intake then .holdAll
                else if uses = true ∧ m.hstd.toNat ≤ u.intake then .holdStd else .clear
              pendHold := if uses = true ∧ m.hall.toNat ≤ u.intake then
                  some ⟨.all, c.htime.setWidth 12⟩
                else if uses = true ∧ m.hstd.toNat ≤ u.intake then
                  some ⟨.standard, c.htime.setWidth 12⟩
                else u.pendHold })

/-- A valid GREET in UP or STOPPING with no parcel open: in UP within the start grace a copy of the
agreement is discarded; any other loses the lane to SEEK and is then taken as in SEEK; in STOPPING
it loses the lane to OFF (R47, R55; log 6). What the line still shows after the teardown is log 9, and
that an IDL symbol on it keeps what has gone of it is log 29. -/
def Obligations.GreetInUpOrStoppingRestarts : Prop :=
  ∀ (s : State) (l : Lane) (g : Greet),
    let u := s.lane l
    let copy := u.grace ≠ none ∧ g.ack = true ∧ u.neighbour = some g
    u.framing ≠ .inParcel → 1 ≤ g.station.toNat → g.station.toNat ≤ 239 →
    (u.state = .up → copy → exec (.greetReceived l g) s = .next (s.setLane l u.between))
    ∧ (u.state = .up → ¬copy →
        ∃ m, Lost l .seek s m ∧ (m.lane l).signalLost = false
          ∧ exec (.greetReceived l g) s = exec (.greetReceived l g) m)
    ∧ (u.state = .stopping → ∃ t, exec (.greetReceived l g) s = .next t ∧ Lost l .off s t)

/-- Loss of signal: nothing in OFF, in the start grace or before the next transition; otherwise the
signal-lost condition is entered, a link word is dropped uncounted, and the lane stays in SEEK,
returns from AGREE to SEEK, or is lost to SEEK from UP and to OFF from STOPPING (R4, R48, R55; log
4, log 7, log 14). What the line still shows after the teardown is log 9, and that an IDL symbol on it
keeps what has gone of it is log 29. -/
def Obligations.LossOfSignalByState : Prop :=
  ∀ (s : State) (l : Lane),
    let u := s.lane l
    let quiet := { u with signalLost := true, framing := .between, quiet := .load 0 }
    let watched := u.state ≠ .off ∧ u.grace = none ∧ u.signalLost = false
    (¬watched → exec (.lossOfSignal l) s = .next s)
    ∧ (watched → u.state = .seek → exec (.lossOfSignal l) s = .next (s.setLane l quiet))
    ∧ (watched → u.state = .agree → exec (.lossOfSignal l) s =
        .next (raise (.lane l) (s.setLane l { quiet with
          state := .seek, neighbour := none, identical := 0, sent := 0, pendGreet := true
          greetTimer := some (.load 16) })))
    ∧ (watched → u.state = .up → ∃ t, exec (.lossOfSignal l) s = .next t ∧ Lost l .seek s t
        ∧ (t.lane l).signalLost = true)
    ∧ (watched → u.state = .stopping → ∃ t, exec (.lossOfSignal l) s = .next t ∧ Lost l .off s t)

/-- The timers of bring-up control, expiring while they run: the GREET interval requests a GREET (R43),
the bring-up timer records TIMEOUT and is reloaded, from AGREE with a return to SEEK (R49), the stop
timer tears the lane down to OFF (R53), the start grace ends and the quiet interval starts anew (R4). A
timer that does not run cannot expire (log 4). What the line still shows after that teardown is log 9. -/
def Obligations.BringUpTimersExpire : Prop :=
  ∀ (s : State) (l : Lane),
    let u := s.lane l
    let load : Option Countdown := some (.load (s.cfg.buplim.toNat * 256))
    let timeout (v : LaneUnit) := raise (.bring l) (bump (.ofLane l .bringupFaults) (s.setLane l v))
    ((u.greetTimer = none ∨ u.state.greets = false) → exec (.greetIntervalExpiry l) s = .next s)
    ∧ (u.greetTimer ≠ none → u.state.greets = true → exec (.greetIntervalExpiry l) s =
        .next (s.setLane l { u with pendGreet := true, greetTimer := some (.load 16) }))
    ∧ ((u.bringTimer = none ∨ u.state.greets = false) → exec (.bringUpTimerExpiry l) s = .next s)
    ∧ (u.bringTimer ≠ none → u.state = .seek → exec (.bringUpTimerExpiry l) s =
        .next (timeout { u with lastFault := .timeout, bringTimer := load }))
    ∧ (u.bringTimer ≠ none → u.state = .agree → exec (.bringUpTimerExpiry l) s =
        .next (raise (.lane l) (timeout { u with
          lastFault := .timeout, bringTimer := load, state := .seek, neighbour := none
          identical := 0, sent := 0, pendGreet := true, greetTimer := some (.load 16) })))
    ∧ ((u.stopTimer = none ∨ u.state ≠ .stopping) → exec (.stopTimerExpiry l) s = .next s)
    ∧ (u.stopTimer ≠ none → u.state = .stopping →
        ∃ t, exec (.stopTimerExpiry l) s = .next t ∧ Stopped l .off s t)
    ∧ (u.grace = none → exec (.startGraceEnd l) s = .next s)
    ∧ (u.grace ≠ none → exec (.startGraceEnd l) s =
        .next (s.setLane l { u with grace := none, quiet := .load 4 }))

/-! ### Framing and reception -/

/-- The symbols in each framing state, on a lane with no assembly open: taken by R2, breaking a
link word by R3 with WORD_BAD; the receiver in OFF takes nothing; a symbol at another rate only
counts as a transition; a parcel's symbols in SEEK and AGREE have no effect beyond the framing; and
a symbol that breaks an open parcel is taken from BETWEEN once the parcel is closed BAD. The SOP of a
lane that carries traffic opens an assembly, which SopOpensAssembly states for each framing state (R2 to
R4, R16, R46; log 7). -/
def Obligations.SymbolsFramed : Prop :=
  ∀ (s : State) (l : Lane),
    let u := s.lane l
    let h := u.heard
    let stay := Host.Outcome.next (ρ := Refusal) (φ := Fault) (s.setLane l h)
    let goesTo (f : Framing) := Host.Outcome.next (ρ := Refusal) (φ := Fault)
      (s.setLane l { h with framing := f })
    let broken (f : Framing) := Host.Outcome.next (ρ := Refusal) (φ := Fault)
      (bump (.ofLane l .wordBad) (s.setLane l { h with framing := f }))
    (u.state = .off → ∀ b, ∀ c ∈ [Instr.sopReceived l, .sowReceived l, .idlReceived l,
        .dataByteReceived l b, .eopReceived l, .abtReceived l, .symbolAtOtherRate l],
      exec c s = .next s)
    ∧ (u.state ≠ .off → exec (.symbolAtOtherRate l) s = stay)
    ∧ (u.state ≠ .off → u.framing = .between →
        exec (.idlReceived l) s = stay ∧ (∀ b, exec (.dataByteReceived l b) s = stay)
        ∧ exec (.eopReceived l) s = stay ∧ exec (.abtReceived l) s = stay
        ∧ exec (.sowReceived l) s = goesTo (.inWord []))
    ∧ (u.state ≠ .off → ∀ bs, u.framing = .inWord bs →
        exec (.idlReceived l) s = broken .between ∧ exec (.eopReceived l) s = broken .between
        ∧ exec (.abtReceived l) s = broken .between ∧ exec (.sowReceived l) s = broken (.inWord [])
        ∧ (u.state.carries = false → exec (.sopReceived l) s = broken .inParcel)
        ∧ ∀ b, (bs.length < 4 → exec (.dataByteReceived l b) s = goesTo (.inWord (bs ++ [b])))
          ∧ (bs.length = 4 → judgeWord (bs ++ [b]) = none →
              exec (.dataByteReceived l b) s = broken .between))
    ∧ (u.state ≠ .off → u.framing = .inParcel → u.asm.isOpen = false →
        exec (.idlReceived l) s = goesTo .between ∧ exec (.eopReceived l) s = goesTo .between
        ∧ exec (.abtReceived l) s = goesTo .between ∧ exec (.sowReceived l) s = goesTo (.inWord [])
        ∧ ∀ b, exec (.dataByteReceived l b) s = stay)
    ∧ (u.state.greets = true → (∀ bs, u.framing ≠ .inWord bs) → u.asm.isOpen = false →
        exec (.sopReceived l) s = goesTo .inParcel)
    ∧ (u.state ≠ .off → u.framing = .inParcel → u.asm.isOpen = true →
        ∃ t, exec (.idlReceived l) s = .next t ∧ (t.lane l).framing = .between
          ∧ (t.lane l).state = u.state
          ∧ exec (.sopReceived l) s = exec (.sopReceived l) t
          ∧ exec (.sowReceived l) s = exec (.sowReceived l) t)

/-- The command of a whole link word and the six symbols that spell it have one effect, on a lane in no
link word: the word's owner takes it (R16), and an open parcel is closed by the SOW (R3; log 6). In SEEK
and AGREE an ACK, a REPLAY and a HOLD are discarded uncounted, and in OFF every word is (R16). -/
def Obligations.LinkWordSymbolsActAsTheWord : Prop :=
  ∀ (s : State) (l : Lane),
    let words : List (Instr × LinkWord) → Prop := fun cs => ∀ c ∈ cs,
      Host.Core.run Sys2Proof.core 6
          { s with pending := .sowReceived l :: c.2.bytes.map (.dataByteReceived l) } =
        exec c.1 { s with pending := [] }
    ((∀ bs, (s.lane l).framing ≠ .inWord bs) → ∀ (q : Seq) (sc : HoldScope) (t : BitVec 12),
      words [(.ackReceived l q, .ack q), (.replayReceived l q, .replay q),
        (.holdReceived l sc t, .hold sc t)])
    ∧ ((∀ bs, (s.lane l).framing ≠ .inWord bs) → ∀ g : Greet, 1 ≤ g.station.toNat →
        g.station.toNat ≤ 239 → words [(.greetReceived l g, .greet g)])
    ∧ ((s.lane l).state.greets = true → (s.lane l).asm.isOpen = false →
        ∀ (q : Seq) (sc : HoldScope) (t : BitVec 12),
        ∀ c ∈ [Instr.ackReceived l q, .replayReceived l q, .holdReceived l sc t],
          exec c s = .next (s.setLane l (s.lane l).between))
    ∧ ((s.lane l).state = .off → ∀ (q : Seq) (sc : HoldScope) (t : BitVec 12) (g : Greet),
        ∀ c ∈ [Instr.ackReceived l q, .replayReceived l q, .holdReceived l sc t,
          .greetReceived l g], exec c s = .next s)

/-- An SOP on a lane that carries traffic, from BETWEEN, in the middle of a link word, which is first
counted in WORD_BAD, or inside a parcel that opened no assembly (one begun in AGREE): it opens an
assembly at the starting values of R60 with the lowest-numbered FREE record, or overrun from its start
when no record is FREE (R3, R16, R22, R46, R61). -/
def Obligations.SopOpensAssembly : Prop :=
  ∀ (s : State) (l : Lane),
    let u := s.lane l
    let opened (a : Assembly) := { u.heard with framing := .inParcel, asm := a }
    let start := { Assembly.start with isOpen := true }
    let base := match u.framing with
      | .inWord _ => bump (.ofLane l .wordBad) s
      | .between => s
      | .inParcel => s
    (u.state = .up ∨ u.state = .stopping) → (u.framing = .inParcel → u.asm.isOpen = false) →
    (∀ h, (s.record h).isFree = true → (∀ k < h, (s.record k).isFree = false) →
      exec (.sopReceived l) s = .next { base.setLane l (opened { start with record := some h }) with
        records := s.records.set h
          { Record.cleared with arrival := some (.fromLane l), assembly := some l } })
    ∧ ((∀ h, (s.record h).isFree = false) →
      exec (.sopReceived l) s = .next (base.setLane l (opened { start with overrun := true })))

/-- A byte of an open assembly: the first 8 go to the header holding, the 8th with a length field above
512 sets the storing limit to 0; a later one goes to the check holding, and the byte two before it is
stored as payload unless the assembly is overrun or at its limit, taking a cell at each multiple of 64;
a refused cell overruns the assembly and returns all it holds. No other byte of the cells changes (R31,
R62, R63). That no cells returned are no change of intake is log 13, and the running check kept without
the last two bytes is the model's own field (log 24). -/
def Obligations.DataBytesAssembled : Prop :=
  ∀ (s : State) (l : Lane) (b : Byte),
    let u := s.lane l
    let a := u.asm
    let a1 := { a with byteCount := min (a.byteCount + 1) 1024, crc := crc16Byte a.crc b }
    let held (a' : Assembly) : State := s.setLane l { u.heard with asm := a' }
    let go := exec (.dataByteReceived l b) s
    u.state ≠ .off → u.framing = .inParcel → a.isOpen = true →
    (a.header.length < 8 →
      let hs := a.header ++ [b]
      go = .next (held { a1 with
        header := hs, crcBeforeCheck := crc16Byte a.crc b
        limit := if hs.length = 8 ∧ 512 < (Header.decode hs).length then 0 else a.limit }))
    ∧ (8 ≤ a.header.length → a.check.length < 2 →
        go = .next (held { a1 with check := a.check ++ [b] }))
    ∧ ∀ x y, 8 ≤ a.header.length → a.check = [x, y] →
      let a2 := { a1 with check := [y, b], crcBeforeCheck := crc16Byte a.crcBeforeCheck x }
      let s2 := held a2
      let ask := s2.requestCell (.fromLane l) (Header.decode a.header).cls
      let wrote (c : CellNo) (t : State) : Prop :=
        s.mem.wf = true → t.mem.wf = true ∧ ∀ i, t.mem.read i =
          if i = 64 * c.val + a.stored % 64 then x else s.mem.read i
      ((a.overrun = true ∨ a.limit ≤ a.stored) → go = .next s2)
      ∧ (∀ c, a.overrun = false → a.stored < a.limit → a.stored % 64 ≠ 0 →
          a.cells.getLast? = some c →
          ∃ t, go = .next t ∧ wrote c t
            ∧ t = { held { a2 with stored := a.stored + 1 } with mem := t.mem })
      ∧ (∀ c s3, a.overrun = false → a.stored < a.limit → a.stored % 64 = 0 →
          ask = some (c, s3) →
          ∃ t, go = .next t ∧ wrote c t
            ∧ t = { s3.setLane l { s3.lane l with
                asm := { a2 with stored := a.stored + 1, cells := a.cells ++ [c] } } with
              mem := t.mem })
      ∧ (a.overrun = false → a.stored < a.limit → a.stored % 64 = 0 → ask = none →
          a.cells.length ≤ u.intake →
          let t := s2.withoutAssembly l
          go = .next (t.setLane l { t.lane l with
            asm := { a2 with overrun := true, record := none, cells := [] } }))

/-- What an assembly holds of the bytes that followed its SOP, however they were stored: the first 8, the
last two of the others, their number up to 1024; and its check is good exactly when there are 10 or more
and the check word of all but the last two equals those two, high byte first (R8, R60, R62, R63, R65). -/
def Obligations.AssemblyChecksTheWholeParcel : Prop :=
  ∀ (s : State) (l : Lane) (r : Option Handle) (bs : List Byte),
    let n := bs.length
    (s.lane l).state ≠ .off → (s.lane l).framing = .inParcel →
    (s.lane l).asm = { Assembly.start with isOpen := true, record := r, overrun := r.isNone } →
    ∃ t, Host.Core.run Sys2Proof.core n { s with pending := bs.map (.dataByteReceived l) } = .next t
      ∧ (t.lane l).framing = .inParcel ∧ (t.lane l).asm.isOpen = true
      ∧ (t.lane l).asm.header = bs.take 8 ∧ (t.lane l).asm.byteCount = min n 1024
      ∧ (t.lane l).asm.crc = crc16 bs
      ∧ (t.lane l).asm.check = (bs.drop 8).drop (n - 10)
      ∧ ((t.lane l).asm.checkGood = true ↔
          10 ≤ n ∧ crc16 (bs.take (n - 2)) = wordOf (bs.getD (n - 2) 0) (bs.getD (n - 1) 0))

/-- A parcel closed by a framing fault or with a wrong check is discarded, counted in RX_BAD, and
asks for a REPLAY unless a flag is set (R3, R65, R84); one closed by ABT is discarded and counted in
RX_ABORTED alone (R64; log 13). -/
def Obligations.DamagedParcelsDiscarded : Prop :=
  ∀ (s : State) (l : Lane),
    let u := s.lane l
    let t := (s.setLane l u.between).withoutAssembly l
    let bad := Host.Outcome.next (ρ := Refusal) (φ := Fault)
      (bump (.ofLane l .rxBad) (t.setLane l (t.lane l).replayAsked))
    u.state ≠ .off → u.framing = .inParcel → u.asm.isOpen = true →
    u.asm.cells.length ≤ u.intake →
    exec (.idlReceived l) s = bad
    ∧ (u.asm.checkGood = false → exec (.eopReceived l) s = bad)
    ∧ exec (.abtReceived l) s = .next (bump (.ofLane l .rxAborted) t)

/-- The sequence test of a parcel with a good check, by the distance d = (expected − s) modulo 64: d
of 1 to 32 is a duplicate, answered by an ACK, 33 to 63 a gap, answered by a REPLAY unless a flag is
set, and 0 with the overrun mark an overrun, whose REPLAY is owed; each is discarded and counted
(R17, R81, R83 to R85; log 13). -/
def Obligations.UnacceptedParcelsBySequence : Prop :=
  ∀ (s : State) (l : Lane),
    let u := s.lane l
    let d := (u.expected - (Header.decode u.asm.header).seq).toNat
    let t := (s.setLane l u.between).withoutAssembly l
    u.state ≠ .off → u.framing = .inParcel → u.asm.isOpen = true → u.asm.checkGood = true →
    u.asm.cells.length ≤ u.intake →
    (1 ≤ d → d ≤ 32 → exec (.eopReceived l) s =
      .next (bump (.ofLane l .rxDup) (t.setLane l (t.lane l).ackAsked)))
    ∧ (33 ≤ d → exec (.eopReceived l) s =
      .next (bump (.ofLane l .rxGap) (t.setLane l (t.lane l).replayAsked)))
    ∧ (d = 0 → u.asm.overrun = true → exec (.eopReceived l) s =
      .next (bump (.ofLane l .rxOverrun) (t.setLane l { t.lane l with replayOwed := true })))

/-- An accepted parcel advances the expected sequence and counts towards an ACK, requested at the 8th;
the replay-requested flag is cleared; it is counted in RX_ACCEPTED, and found malformed or come back to
its own origin it is counted as such and discarded. Otherwise the assembly takes its starting values, its
cells staying in the record while a part of the parcel survives and returned where none does (R66 to
R68, R76, R82, R87; no cells returned are no change of intake, log 13). -/
def Obligations.AcceptedParcelAcknowledgedAndTested : Prop :=
  ∀ (s : State) (l : Lane),
    let u := s.lane l
    let a := u.asm
    let h := Header.decode a.header
    let n := u.accSinceAck + 1
    let next := { u.between with expected := u.expected + 1, replayRequested := false }
    let v : LaneUnit :=
      if 8 ≤ n then { next with pendAck := some u.expected, accSinceAck := 0, ackTimer := none }
      else { next with
        accSinceAck := n
        ackTimer := if u.ackTimer = none then some (.load s.cfg.ackdly.toNat) else u.ackTimer }
    let t := bump (.ofLane l .rxAccepted) (s.setLane l v)
    let malformed := h.kind ≠ 1 ∨ h.dest = 0 ∨ ¬(1 ≤ h.origin.toNat ∧ h.origin.toNat ≤ 239)
      ∨ 512 < h.length ∨ h.length ≠ a.byteCount - 10
    let own := h.origin.toNat = s.cfg.station.toNat
    let kept := { v with asm := Assembly.start }
    let freed := if a.cells = [] then kept
      else LaneUnit.intakeTo s.cfg (s.cfg.lane l) (u.intake - a.cells.length) kept
    u.state ≠ .off → u.framing = .inParcel → a.isOpen = true → a.checkGood = true →
    h.seq = u.expected → a.overrun = false → a.cells.length ≤ u.intake →
    (malformed → exec (.eopReceived l) s =
      .next ((bump (.ofLane l .rxMalformed) t).withoutAssembly l))
    ∧ (¬malformed → own → exec (.eopReceived l) s =
      .next ((bump (.ofLane l .rxStripped) t).withoutAssembly l))
    ∧ (¬malformed → ¬own → ∃ t', exec (.eopReceived l) s = .next t'
        ∧ (∀ k, a.record = some k → (t'.record k).isFree = false → t'.lane l = kept)
        ∧ (∀ k, a.record = some k → (t'.record k).isFree = true → t'.lane l = freed)
        ∧ (a.record = none → t'.lane l = freed))

/-- An accepted, well-formed parcel of another origin is classified by its dest; its deliver part needs
room in the delivery queue of its class, its forward part a hop, the other lane UP and room in its
forward queue, and each part that fails is counted; the surviving parts join their queues with one
reference each, and with none the record is freed (R69 to R71, R74 to R76, R134). -/
def Obligations.AcceptedParcelClassifiedAndHandedOver : Prop :=
  ∀ (s : State) (l : Lane) (k : Handle),
    let u := s.lane l
    let a := u.asm
    let h := Header.decode a.header
    let o := s.lane (otherLane l)
    let dest := h.dest.toNat
    let entry (x : RouteAction) := ∃ i : Fin 32, s.routes[i] = some ⟨h.dest, x⟩
    let self := dest = s.cfg.station.toNat
    let single := dest ≤ 239 ∧ ¬self
    let wantsDeliver := self ∨ (¬self ∧ dest = 255)
      ∨ (¬self ∧ 240 ≤ dest ∧ dest ≤ 254 ∧ s.cfg.groups.getLsbD (dest - 240) = true)
      ∨ (single ∧ entry .adopt)
    let wantsForward := ¬self ∧ (240 ≤ dest ∨ (¬entry .adopt ∧ ¬entry .discard))
    let depth := if h.cls = .express then (loByte s.cfg.ddepth).toNat
      else (hiByte s.cfg.ddepth).toNat
    let room := (if h.cls = .express then s.dqX else s.dqS).length < depth
    let fwdRoom := (if h.cls = .express then o.fwdX else o.fwdS).length < s.cfg.fdepth.toNat
    let forwards := wantsForward ∧ h.hop ≠ 0 ∧ o.state = .up ∧ fwdRoom
    let delivers := wantsDeliver ∧ room
    let counted (c : Counter) (s t : State) : Prop := t.counter c = (bump c s).counter c
    let kept (c : Counter) (s t : State) : Prop := t.counter c = s.counter c
    u.state ≠ .off → u.framing = .inParcel → a.isOpen = true → a.checkGood = true →
    h.seq = u.expected → a.overrun = false → a.record = some k →
    h.malformed (a.byteCount - 10) = false → h.origin.toNat ≠ s.cfg.station.toNat →
    s.LegalRoutes → a.cells.length ≤ u.intake →
    ∃ t, exec (.eopReceived l) s = .next t
      ∧ ((delivers ∨ forwards) → t.record k = {
          cls := h.cls, dest := h.dest, origin := h.origin, hop := h.hop, tag := h.tag
          length := h.length, arrival := some (.fromLane l), chain := a.cells
          refs := (if delivers then 1 else 0) + (if forwards then 1 else 0)
          compose := false, assembly := none }
        ∧ t.freeList = s.freeList ∧ (t.lane l).intake = u.intake)
      ∧ (¬delivers → ¬forwards → t.record k = Record.cleared
        ∧ t.freeList = s.freeList ++ a.cells ∧ (t.lane l).intake = u.intake - a.cells.length)
      ∧ (∀ k', k' ≠ k → t.record k' = s.record k')
      ∧ t.dqX = (if delivers ∧ h.cls = .express then s.dqX ++ [k] else s.dqX)
      ∧ t.dqS = (if delivers ∧ h.cls = .standard then s.dqS ++ [k] else s.dqS)
      ∧ (delivers → t.isPending (if h.cls = .express then .dlvX else .dlvS) = true)
      ∧ t.lane (otherLane l) = (
          if forwards ∧ h.cls = .express then { o with fwdX := o.fwdX ++ [k] }
          else if forwards ∧ h.cls = .standard then { o with fwdS := o.fwdS ++ [k] } else o)
      ∧ counted (.ofLane l .rxAccepted) s t
      ∧ ((if single ∧ entry .discard then counted else kept) .routeDiscard s t
          ∧ (∀ c, (if wantsDeliver ∧ ¬room ∧ c = h.cls then counted else kept) (.dlvFull c) s t)
          ∧ (if wantsForward ∧ h.hop = 0 then counted else kept) (.ofLane l .fwdHopExpired) s t
          ∧ (if wantsForward ∧ h.hop ≠ 0 ∧ o.state ≠ .up then counted else kept)
              (.ofLane l .fwdNoLane) s t
          ∧ (if wantsForward ∧ h.hop ≠ 0 ∧ o.state = .up ∧ ¬fwdRoom then counted else kept)
              (.ofLane l .fwdFull) s t)
      ∧ SameHost s t ∧ t.mem = s.mem ∧ t.reports = s.reports ∧ t.localCount = s.localCount

/-! ### Acknowledgement, replay and holds received -/

/-- An ACK on a lane that carries traffic, no parcel being open: naming no entry it is counted in
ACK_STRAY; naming one it marks every entry up to it, the marked ones not on wire leave from the
oldest end with their DONE reports and drops, the pointer moves past what is covered, the replay
timer is reloaded or stopped, and with the list empty a STOPPING lane ends in OFF, what else it holds
being ended after those drops (R53, R93, R94, R96, R129, R155, R156; log 6). The order of the parts of
that teardown is log 8, and what the line still shows after it is log 9. -/
def Obligations.AckRemovesCoveredEntries : Prop :=
  ∀ (s : State) (l : Lane) (q : Seq),
    let u := s.lane l
    let rtmo := s.cfg.rtmo.toNat
    (u.state = .up ∨ u.state = .stopping) → u.framing ≠ .inParcel →
    ((∀ e ∈ u.replay, e.seq ≠ q) → exec (.ackReceived l q) s =
      .next (bump (.ofLane l .ackStray) (s.setLane l u.between)))
    ∧ ∀ es e fs, u.replay = es ++ e :: fs → e.seq = q → (∀ x ∈ es, x.seq ≠ q) →
      s.reports.length ≤ 32 → (u.replay.map (·.handle)).Nodup →
      let marked : List ReplayEntry := (es ++ [e]).map (fun x => { x with acked := true }) ++ fs
      let gone := marked.takeWhile fun x => x.acked && !x.onWire
      let rest := marked.dropWhile fun x => x.acked && !x.onWire
      ∃ t, exec (.ackReceived l q) s = .next t
        ∧ (¬(u.state = .stopping ∧ rest = []) → EntriesDone l gone s t
          ∧ SameButIntake { u.between with
              replay := rest
              pointer := match u.pointer with
                | none => none
                | some p => if ∃ x ∈ rest, x.seq = p ∧ x.acked = false then some p
                    else (rest.find? fun x => !x.acked).map (·.seq)
              replayTimer := if rest = [] then .stopped else u.loaded rtmo } (t.lane l))
        ∧ (u.state = .stopping → rest = [] → Stopped l .off s t
          ∧ (u.HoldsOnce → ∃ m, EntriesDone l gone s m
              ∧ SameButIntake
                  { u.between with replay := [], pointer := none, replayTimer := .stopped } (m.lane l)
              ∧ EndedInOrder l .off m t))

/-- A REPLAY on a lane that carries traffic, no parcel being open, is counted in REPLAY_RX and
decided by the table of R95: it names the oldest entry, a later one after the ACK of the entry
before it, or the next sequence, where it acknowledges all; an acked entry or a seq of none is
counted in ACK_STRAY (R95, R96; log 6). -/
def Obligations.ReplayWordMatchedAgainstList : Prop :=
  ∀ (s : State) (l : Lane) (q : Seq),
    let u := s.lane l
    let v := u.between
    let rx (u' : LaneUnit) := bump (.ofLane l .replayRx) (s.setLane l u')
    let go := exec (.replayReceived l q) s
    let point (u' : LaneUnit) : LaneUnit :=
      { u' with pointer := some q, replayTimer := u'.loaded s.cfg.rtmo.toNat }
    (u.state = .up ∨ u.state = .stopping) → u.framing ≠ .inParcel →
    (∀ e es, u.replay = e :: es → e.seq = q → e.acked = false → go = .next (rx (point v)))
    ∧ (∀ es d e fs, u.replay = es ++ d :: e :: fs → e.seq = q → e.acked = false →
        d.seq = q - 1 → (∀ x ∈ es, x.seq ≠ q ∧ x.seq ≠ q - 1) →
        ∃ m, exec (.ackReceived l (q - 1)) (rx v) = .next m
          ∧ go = .next (m.setLane l (point (m.lane l))))
    ∧ ((∀ e ∈ u.replay, e.seq ≠ q) → q = u.nextSeq → u.replay = [] → go = .next (rx v))
    ∧ (∀ es d, (∀ e ∈ u.replay, e.seq ≠ q) → q = u.nextSeq → u.replay = es ++ [d] →
        d.seq = q - 1 → go = exec (.ackReceived l (q - 1)) (rx v))
    ∧ (∀ es e fs, u.replay = es ++ e :: fs → (∀ x ∈ es, x.seq ≠ q) → e.seq = q →
        e.acked = true → go = .next (bump (.ofLane l .ackStray) (rx v)))
    ∧ ((∀ e ∈ u.replay, e.seq ≠ q) → q ≠ u.nextSeq →
        go = .next (bump (.ofLane l .ackStray) (rx v)))

/-- A HOLD on a lane that carries traffic, no parcel being open: without hold use it is counted in
WORD_BAD and has no other effect (R103); otherwise it is counted in HOLD_RX and sets or ends the
partner hold by the table of R111, HELD is raised when the hold becomes active or ends, and the
replay timer pauses and resumes with it (R96; log 6), in the middle of a beat too (log 31). -/
def Obligations.HoldWordSetsPartnerHold : Prop :=
  ∀ (s : State) (l : Lane) (sc : HoldScope) (t : BitVec 12),
    let u := s.lane l
    let v := u.between
    let rx (u' : LaneUnit) := bump (.ofLane l .holdRx) (s.setLane l u')
    let go := exec (.holdReceived l sc t) s
    let paused := match u.replayTimer with
      | .running c => ReplayTimer.paused c
      | .paused c => .paused c
      | .stopped => .stopped
    let resumed := match u.replayTimer with
      | .paused c => ReplayTimer.running c
      | .running c => .running c
      | .stopped => .stopped
    let held : LaneUnit :=
      { v with partnerScope := sc, partnerTimer := .load t.toNat, replayTimer := paused }
    let ended : LaneUnit := { v with partnerTimer := .load 0, replayTimer := resumed }
    (u.state = .up ∨ u.state = .stopping) → u.framing ≠ .inParcel →
    (u.holdUse = false → go = .next (bump (.ofLane l .wordBad) (s.setLane l v)))
    ∧ (u.holdUse = true → t ≠ 0 → u.partnerTimer.left = 0 → go = .next (raise (.held l) (rx held)))
    ∧ (u.holdUse = true → t ≠ 0 → 0 < u.partnerTimer.left → go = .next (rx held))
    ∧ (u.holdUse = true → t = 0 → 0 < u.partnerTimer.left → go = .next (raise (.held l) (rx ended)))
    ∧ (u.holdUse = true → t = 0 → u.partnerTimer.left = 0 → go = .next (rx ended))

/-- The timers of acknowledgement, replay and holds, expiring while they run: an ACK is requested (R87),
the pointer goes to the oldest entry not marked acked and the timer is reloaded (R96), the HOLD of the
present state is requested again (R107), the partner hold ends with HELD (R112) and a paused replay timer
goes on, in the middle of a beat too (log 31). One that does not run cannot expire (log 4). -/
def Obligations.TrafficTimersExpire : Prop :=
  ∀ (s : State) (l : Lane),
    let u := s.lane l
    let renew (sc : HoldScope) := Host.Outcome.next (ρ := Refusal) (φ := Fault) (s.setLane l { u with
      pendHold := some ⟨sc, s.cfg.htime.setWidth 12⟩, renewTimer := none })
    (u.ackTimer = none → exec (.ackDelayExpiry l) s = .next s)
    ∧ (u.ackTimer ≠ none → exec (.ackDelayExpiry l) s = .next (s.setLane l u.ackAsked))
    ∧ ((∀ c, u.replayTimer ≠ .running c) → exec (.replayTimerExpiry l) s = .next s)
    ∧ (∀ c, u.replayTimer = .running c → exec (.replayTimerExpiry l) s =
        .next (s.setLane l { u with
          pointer := (u.replay.find? fun e => !e.acked).map (·.seq)
          replayTimer := .running (.load s.cfg.rtmo.toNat) }))
    ∧ ((u.renewTimer = none ∨ u.ownHold = .clear) → exec (.renewTimerExpiry l) s = .next s)
    ∧ (u.renewTimer ≠ none → u.ownHold = .holdStd →
        exec (.renewTimerExpiry l) s = renew .standard)
    ∧ (u.renewTimer ≠ none → u.ownHold = .holdAll → exec (.renewTimerExpiry l) s = renew .all)
    ∧ (u.partnerTimer.left = 0 → exec (.partnerHoldExpiry l) s = .next s)
    ∧ (0 < u.partnerTimer.left → exec (.partnerHoldExpiry l) s =
        .next (raise (.held l) (s.setLane l { u with
          partnerTimer := .load 0
          replayTimer := match u.replayTimer with
            | .paused c => .running c
            | .running c => .running c
            | .stopped => .stopped })))

/-! ### Sending -/

/-- A start opportunity takes a pending link word first, in the order GREET, HOLD, REPLAY, ACK; a
GREET carries the lane's terms, a REPLAY and a HOLD are counted, a HOLD with a time above 0 loads
the renew timer while the own hold stands; none arises in OFF or with a unit in progress (R43, R88,
R106, R107, R118 to R120; log 11, log 23). It starts behind what a teardown left on the line (log 9),
and what had not gone out of an IDL symbol is dropped (log 28). -/
def Obligations.LinkWordsStartFirst : Prop :=
  ∀ (s : State) (l : Lane),
    let u := s.lane l
    let m := s.cfg.lane l
    let go := exec (.startOpportunity l) s
    let greet : LinkWord := .greet
      { ack := u.state == .agree, hold := m.lcfg.getLsbD 3
        station := loByte s.cfg.station, rates := m.lcfg.extractLsb' 0 3 }
    let start (w : LinkWord) (v : LaneUnit) : State := s.setLane l { v with
      unit := .word w, txq := u.txq ++ atRate u.rate w.symbols
      symGone := if u.txq = [] then 0 else u.symGone }
    let carries := u.state = .up ∨ u.state = .stopping
    ((u.state = .off ∨ u.unit ≠ .none) → go = .next s)
    ∧ (u.unit = .none → (u.state = .seek ∨ u.state = .agree) → u.pendGreet = true →
        go = .next (start greet { u with pendGreet := false }))
    ∧ (∀ h, u.unit = .none → carries → u.pendHold = some h →
        go = .next (bump (.ofLane l .holdTx) (start (.hold h.scope h.time) { u with
          pendHold := none
          renewTimer := if h.time ≠ 0 ∧ u.ownHold ≠ .clear then
            some (.load (s.cfg.htime.toNat - s.cfg.hrenew.toNat)) else u.renewTimer })))
    ∧ (∀ q, u.unit = .none → carries → u.pendHold = none → u.pendReplay = some q →
        go = .next (bump (.ofLane l .replayTx) (start (.replay q) { u with pendReplay := none })))
    ∧ (∀ q, u.unit = .none → carries → u.pendHold = none → u.pendReplay = none →
        u.pendAck = some q → go = .next (start (.ack q) { u with pendAck := none }))
    ∧ (u.unit = .none → (u.state = .seek ∨ u.state = .agree) → u.pendGreet = false →
        go = .next s)

/-- With no link word pending, the entry at the replay pointer is resent unless its class is held:
with its attempts at RLIM the lane is lost to SEEK from UP and to OFF from STOPPING (what its line still shows
then: log 9, log 29); otherwise its
attempts rise, TX_RESENDS counts, the pointer moves to the next newer entry, and the parcel starts
with its own seq (R97, R98, R113, R121; log 22), behind what a teardown left on the line (log 9), or
in place of what had not gone out of an IDL symbol (log 28). -/
def Obligations.ResendOrReplayFailure : Prop :=
  ∀ (s : State) (l : Lane) (es : List ReplayEntry) (e : ReplayEntry) (fs : List ReplayEntry),
    let u := s.lane l
    let held := 0 < u.partnerTimer.left ∧ (u.partnerScope = .all ∨ e.cls = .standard)
    let go := exec (.startOpportunity l) s
    (u.state = .up ∨ u.state = .stopping) → u.unit = .none → u.pendHold = none →
    u.pendReplay = none → u.pendAck = none → u.pointer = some e.seq →
    u.replay = es ++ e :: fs → (∀ x ∈ es ++ fs, x.seq ≠ e.seq) →
    (¬held → e.attempts = s.cfg.rlim.toNat → u.state = .up → ∃ t, go = .next t ∧ Lost l .seek s t)
    ∧ (¬held → e.attempts = s.cfg.rlim.toNat → u.state = .stopping →
        ∃ t, go = .next t ∧ Lost l .off s t)
    ∧ (¬held → e.attempts ≠ s.cfg.rlim.toNat →
        go = .next (bump (.ofLane l .txResends) (s.setLane l { u with
          replay := es ++ { e with attempts := e.attempts + 1, onWire := true } :: fs
          pointer := fs.head?.map (·.seq), unit := .parcel e.seq
          txq := u.txq ++ atRate u.rate (s.parcelSymbols e.handle e.seq)
          symGone := if u.txq = [] then 0 else u.symGone })))
    ∧ (held → u.state = .stopping → go = .next s)

/-- With no link word pending and no resend to start, a lane in UP with room in its replay list
starts the head that R122 to R124 choose: express first unless the streak calls for standard or a
hold bars express, and within the class the queue whose turn it is. The head moves to the replay
list under the next sequence, TX_PARCELS counts, turn and streak follow, a stopped replay timer is
loaded, and the parcel starts; with no head that may start nothing happens (R91, R113, R119, R122 to
R125; log 22). The parcel starts behind what a teardown left on the line (log 9), or in place of what
had not gone out of an IDL symbol (log 28). -/
def Obligations.FirstTransmissionOfChosenHead : Prop :=
  ∀ (s : State) (l : Lane),
    let u := s.lane l
    let go := exec (.startOpportunity l) s
    let held (k : TrafficClass) := 0 < u.partnerTimer.left ∧ (u.partnerScope = .all ∨ k = .standard)
    let may (k : TrafficClass) := (u.fwd k ≠ [] ∨ u.send k ≠ []) ∧ ¬held k
    let ratio := s.cfg.xratio.toNat
    let takes (k : TrafficClass) := match k with
      | .standard => may .standard ∧ ((0 < ratio ∧ ratio ≤ u.streak) ∨ ¬may .express)
      | .express => may .express ∧ ¬(may .standard ∧ 0 < ratio ∧ ratio ≤ u.streak)
    let barred := ∃ e ∈ u.replay, u.pointer = some e.seq ∧ held e.cls
      ∧ ∀ x ∈ u.replay, x.seq = e.seq → x = e
    u.unit = .none → u.pendHold = none → u.pendReplay = none → u.pendAck = none →
    (u.pointer = none ∨ barred) →
    (u.state = .stopping → go = .next s)
    ∧ (u.state = .up → u.replay.length = 32 → go = .next s)
    ∧ (u.state = .up → ¬may .express → ¬may .standard → go = .next s)
    ∧ ∀ (k : TrafficClass) (turn : Turn) (h : Handle) (q : List Handle),
      u.state = .up → u.replay.length < 32 → takes k →
      (match turn with
        | .forward => u.fwd k = h :: q ∧ (u.send k = [] ∨ u.turn k = .send)
        | .send => u.send k = h :: q ∧ (u.fwd k = [] ∨ u.turn k = .forward)) →
      let left := match turn with
        | .forward => u.setFwd k q
        | .send => u.setSend k q
      go = .next (bump (.ofLane l .txParcels) (s.setLane l { left with
        nextSeq := u.nextSeq + 1
        replay := u.replay ++ [⟨u.nextSeq, h, k, 0, true, false⟩]
        replayTimer := if u.replayTimer = .stopped then u.loaded s.cfg.rtmo.toNat
          else u.replayTimer
        turnX := if k = .express then turn else u.turnX
        turnS := if k = .standard then turn else u.turnS
        streak := if k = .express then min (u.streak + 1) 15 else 0
        unit := .parcel u.nextSeq
        txq := u.txq ++ atRate u.rate (s.parcelSymbols h u.nextSeq)
        symGone := if u.txq = [] then 0 else u.symGone }))

/-- A parcel on the line is SOP, the header built afresh, the payload bytes of the record in order,
the check word over both high byte first, and EOP; a forwarded parcel goes with one hop less than
received, a local one with its own (R1, R7, R8; log 22). -/
def Obligations.ParcelSymbolsFollowTheRecord : Prop :=
  ∀ (s : State) (h : Handle) (q : Seq),
    let r := s.record h
    let head (hop : BitVec 4) : Header :=
      { kind := 1, cls := r.cls, seq := q, dest := r.dest, origin := r.origin, tag := r.tag
        hop := hop, length := r.length }
    let line (hop : BitVec 4) : List Symbol :=
      let bytes := (head hop).encode ++ (List.range r.length).map (s.payloadByte r)
      .sop :: (bytes ++ [hiByte (crc16 bytes), loByte (crc16 bytes)]).map .data ++ [.eop]
    (∀ l, r.arrival = some (.fromLane l) → s.parcelSymbols h q = line (r.hop - 1))
    ∧ (r.arrival = some .ofHost → s.parcelSymbols h q = line r.hop)
    ∧ ∀ i c, r.chain[i / 64]? = some c → s.payloadByte r i = s.mem.read (64 * c.val + i % 64)

/-- The end of a unit: nothing without one; a link word frees the line for a start opportunity, and
a GREET with the ack flag 1 that ends in AGREE is counted in the sent count, which can bring the
lane to UP as R46 lists it, its hold evaluated as a change from CLEAR (R105); a parcel's entry is no
longer on wire, and with the acked ones behind it leaves if it is acked, after which a STOPPING lane with
an empty list ends in OFF, what else it holds being ended after those drops (R43, R46, R53, R92, R120,
R126, R129, R155, R156; log 11). Symbols of the unit that were still to come are dropped from the line
(log 28). The order of the parts of that teardown is log 8, and what the line still shows after it is log
9. Everywhere but there the event ends with the start opportunity it includes, whose effect
LinkWordsStartFirst, ResendOrReplayFailure and FirstTransmissionOfChosenHead state. -/
def Obligations.UnitEndFreesTheLine : Prop :=
  ∀ (s : State) (l : Lane),
    let u := s.lane l
    let go := exec (.unitEnd l) s
    let next := exec (.startOpportunity l)
    let free := { u with unit := .none, txq := [], symGone := 0 }
    let n := min (u.sent + 1) 255
    let c := s.cfg
    let m := c.lane l
    (u.unit = .none → go = .next s)
    ∧ (∀ w, u.unit = .word w → (∀ g, w = .greet g → g.ack = false ∨ u.state ≠ .agree) →
        go = next (s.setLane l free))
    ∧ (∀ g, u.unit = .word (.greet g) → g.ack = true → u.state = .agree →
        ¬(2 ≤ u.identical ∧ 2 ≤ n) → go = next (s.setLane l { free with sent := n }))
    ∧ (∀ g g', u.unit = .word (.greet g) → g.ack = true → u.state = .agree → 2 ≤ u.identical →
        2 ≤ n → u.neighbour = some g' → u.ownHold = .clear →
        let common := g'.rates &&& m.lcfg.extractLsb' 0 3
        let uses := m.lcfg.getLsbD 3 && g'.hold
        ∃ v, go = next (raise (.lane l) (s.setLane l v))
          ∧ v = { free with
              sent := n, state := .up
              agreed := if common.getLsbD 2 then some .r16 else if common.getLsbD 1 then some .r8
                else if common.getLsbD 0 then some .r4 else none
              holdUse := uses, bringTimer := none, greetTimer := none, pendGreet := false
              grace := some (.load 8)
              ownHold := if uses = true ∧ m.hall.toNat ≤ u.intake then .holdAll
                else if uses = true ∧ m.hstd.toNat ≤ u.intake then .holdStd else .clear
              pendHold := if uses = true ∧ m.hall.toNat ≤ u.intake then
                  some ⟨.all, c.htime.setWidth 12⟩
                else if uses = true ∧ m.hstd.toNat ≤ u.intake then
                  some ⟨.standard, c.htime.setWidth 12⟩
                else u.pendHold })
    ∧ (∀ q es e fs, u.unit = .parcel q → u.replay = es ++ e :: fs → e.seq = q →
        (∀ x ∈ es ++ fs, x.seq ≠ q) →
        let off := es ++ { e with onWire := false } :: fs
        let gone := off.takeWhile fun x => x.acked && !x.onWire
        let rest := off.dropWhile fun x => x.acked && !x.onWire
        (e.acked = false → go = next (s.setLane l { free with replay := off }))
        ∧ (e.acked = true → s.reports.length ≤ 32 → (u.replay.map (·.handle)).Nodup →
            ¬(u.state = .stopping ∧ rest = []) →
            ∃ m, go = next m ∧ EntriesDone l gone s m
              ∧ SameButIntake { free with
                  replay := rest
                  replayTimer := if rest = [] then .stopped else u.replayTimer } (m.lane l))
        ∧ (e.acked = true → u.state = .stopping → rest = [] →
            ∃ t, go = .next t ∧ Stopped l .off (s.setLane l free) t
              ∧ (u.HoldsOnce → s.reports.length ≤ 32 → ∃ m, EntriesDone l gone s m
                  ∧ SameButIntake { free with replay := [], replayTimer := .stopped } (m.lane l)
                  ∧ EndedInOrder l .off m t)))

/-! ### What every step keeps -/

/-- Every step keeps the checked settings within their ranges (R174, R175), the route table legal (R71),
and the payload memory in its canonical form. -/
def Obligations.StepKeepsSettingsRoutesAndMemory : Prop :=
  ∀ s s' : State, s.LegalSettings → s.LegalRoutes → s.mem.wf = true → step s = .next s' →
    s'.LegalSettings ∧ s'.LegalRoutes ∧ s'.mem.wf = true

/-- Every step keeps each lane's blocks as its lane state requires. -/
def Obligations.StepKeepsLanesConsistent : Prop :=
  ∀ s s' : State, (∀ l, (s.lane l).Consistent) → step s = .next s' → ∀ l, (s'.lane l).Consistent

/-- Every step keeps both replay lists sound, on lanes whose blocks are as their states require. -/
def Obligations.StepKeepsReplayListsSound : Prop :=
  ∀ s s' : State, (∀ l, (s.lane l).Consistent ∧ (s.lane l).ReplaySound) → step s = .next s' →
    ∀ l, (s'.lane l).ReplaySound

/-- Every step keeps the counts and timers within their ranges, under legal settings and on lanes whose
blocks are as their states require and whose replay lists are sound. -/
def Obligations.StepKeepsCountsInRange : Prop :=
  ∀ s s' : State, s.LegalSettings → (∀ l, (s.lane l).Consistent ∧ (s.lane l).ReplaySound) →
    s.InRange → step s = .next s' → s'.InRange

/-- Every step keeps the pool sound: no cell lost or in two places, every reference counted, every queue
entry, replay-list entry and slot with a record of the class and arrival it may name. -/
def Obligations.StepKeepsPoolSound : Prop :=
  ∀ s s' : State, s.PoolSound → step s = .next s' → s'.PoolSound

/-- Every step keeps every payload whole, in a sound pool with counts in range. -/
def Obligations.StepKeepsPayloadsWhole : Prop :=
  ∀ s s' : State, s.PoolSound → s.InRange → s.Whole → step s = .next s' → s'.Whole

/-- The state after reset has every invariant that the steps keep. -/
def Obligations.ResetStateIsSound : Prop :=
  State.reset.LegalSettings ∧ State.reset.LegalRoutes ∧ State.reset.mem.wf = true
    ∧ (∀ l, (State.reset.lane l).Consistent ∧ (State.reset.lane l).ReplaySound)
    ∧ State.reset.InRange ∧ State.reset.PoolSound ∧ State.reset.Whole

end
end

