-- ==== Sys2Proof/Laws/Memory.lean ====
section
/-! SUPPORT. The payload memory: a write keeps the canonical form, a read finds the last byte written,
and memories that read alike are equal data. -/

namespace Sys2Proof.Machine

/-- A canonical memory above a bound is canonical above a lower one. -/
theorem Memory.wfFrom_mono {lo lo' : Nat} {m : Memory} (h : lo' ≤ lo)
    (hm : Memory.wfFrom lo m = true) : Memory.wfFrom lo' m = true := by
  cases m with
  | nil => rfl
  | cons e m =>
    obtain ⟨k, v⟩ := e
    simp only [Memory.wfFrom, Bool.and_eq_true, decide_eq_true_eq] at hm ⊢
    exact ⟨⟨Nat.le_trans h hm.1.1, hm.1.2⟩, hm.2⟩

/-- Below its bound a canonical memory lists nothing. -/
theorem Memory.read_below {lo a : Nat} {m : Memory} (hm : Memory.wfFrom lo m = true) (h : a < lo) :
    m.read a = Memory.unlisted := by
  induction m generalizing lo with
  | nil => rfl
  | cons e m ih =>
    obtain ⟨k, v⟩ := e
    simp only [Memory.wfFrom, Bool.and_eq_true, decide_eq_true_eq] at hm
    have hk : k ≠ a := by omega
    simp only [Memory.read, if_neg hk]
    exact ih hm.2 (by omega)

/-- Putting a byte in front keeps the form. -/
theorem Memory.wfFrom_cons {lo a : Nat} {b : Byte} {m : Memory} (h : lo ≤ a)
    (hm : Memory.wfFrom (a + 1) m = true) : Memory.wfFrom lo (Memory.cons a b m) = true := by
  unfold Memory.cons
  split
  · exact Memory.wfFrom_mono (by omega) hm
  · rename_i hb
    simp only [Memory.wfFrom, Bool.and_eq_true, decide_eq_true_eq, bne_iff_ne]
    exact ⟨⟨h, hb⟩, hm⟩

/-- A write keeps the form. -/
theorem Memory.wfFrom_write {lo a : Nat} {b : Byte} {m : Memory} (h : lo ≤ a)
    (hm : Memory.wfFrom lo m = true) : Memory.wfFrom lo (m.write a b) = true := by
  induction m generalizing lo with
  | nil => exact Memory.wfFrom_cons h rfl
  | cons e m ih =>
    obtain ⟨k, v⟩ := e
    have hm' := hm
    simp only [Memory.wfFrom, Bool.and_eq_true, decide_eq_true_eq] at hm'
    simp only [Memory.write]
    split
    · refine Memory.wfFrom_cons h ?_
      simp only [Memory.wfFrom, Bool.and_eq_true, decide_eq_true_eq]
      exact ⟨⟨by omega, hm'.1.2⟩, hm'.2⟩
    · split
      · rename_i e
        exact Memory.wfFrom_cons h (e ▸ hm'.2)
      · simp only [Memory.wfFrom, Bool.and_eq_true, decide_eq_true_eq]
        exact ⟨hm'.1, ih (by omega) hm'.2⟩

/-- A write keeps the canonical form. -/
theorem Memory.wf_write {m : Memory} (a : Nat) (b : Byte) (hm : m.wf = true) :
    (m.write a b).wf = true := Memory.wfFrom_write (Nat.zero_le a) hm

theorem Memory.read_cons_same {a : Nat} {b : Byte} {m : Memory}
    (hm : Memory.wfFrom (a + 1) m = true) : (Memory.cons a b m).read a = b := by
  unfold Memory.cons
  split
  · rename_i hb
    rw [Memory.read_below hm (Nat.lt_succ_self a), hb]
  · simp [Memory.read]

theorem Memory.read_cons_other {a c : Nat} {b : Byte} {m : Memory} (h : a ≠ c) :
    (Memory.cons a b m).read c = m.read c := by
  unfold Memory.cons
  split
  · rfl
  · simp [Memory.read, h]

/-- A read finds the byte written there. -/
theorem Memory.read_write_same {lo a : Nat} {b : Byte} {m : Memory}
    (hm : Memory.wfFrom lo m = true) : (m.write a b).read a = b := by
  induction m generalizing lo with
  | nil => exact Memory.read_cons_same rfl
  | cons e m ih =>
    obtain ⟨k, v⟩ := e
    simp only [Memory.wfFrom, Bool.and_eq_true, decide_eq_true_eq] at hm
    simp only [Memory.write]
    split
    · refine Memory.read_cons_same ?_
      simp only [Memory.wfFrom, Bool.and_eq_true, decide_eq_true_eq]
      exact ⟨⟨by omega, hm.1.2⟩, hm.2⟩
    · split
      · rename_i e
        exact Memory.read_cons_same (e ▸ hm.2)
      · rename_i ne
        simp only [Memory.read, if_neg (Ne.symm ne)]
        exact ih hm.2

/-- A read elsewhere finds what it found before. -/
theorem Memory.read_write_other {a c : Nat} {b : Byte} (m : Memory) (h : a ≠ c) :
    (m.write a b).read c = m.read c := by
  induction m with
  | nil => exact Memory.read_cons_other h
  | cons e m ih =>
    obtain ⟨k, v⟩ := e
    simp only [Memory.write]
    split
    · exact Memory.read_cons_other h
    · split
      · rename_i e
        rw [Memory.read_cons_other h]
        simp [Memory.read, ← e, h]
      · simp only [Memory.read, ih]

/-- Canonical memories that read alike everywhere are equal. -/
theorem Memory.eq_of_read {lo : Nat} {m n : Memory} (hm : Memory.wfFrom lo m = true)
    (hn : Memory.wfFrom lo n = true) (h : ∀ a, m.read a = n.read a) : m = n := by
  induction m generalizing lo n with
  | nil =>
    cases n with
    | nil => rfl
    | cons e n =>
      obtain ⟨k, v⟩ := e
      simp only [Memory.wfFrom, Bool.and_eq_true, bne_iff_ne] at hn
      have := h k
      simp only [Memory.read, if_true] at this
      exact absurd this.symm hn.1.2
  | cons e m ih =>
    obtain ⟨k, v⟩ := e
    simp only [Memory.wfFrom, Bool.and_eq_true, decide_eq_true_eq, bne_iff_ne] at hm
    cases n with
    | nil =>
      have := h k
      simp only [Memory.read, if_true] at this
      exact absurd this hm.1.2
    | cons f n =>
      obtain ⟨j, w⟩ := f
      simp only [Memory.wfFrom, Bool.and_eq_true, decide_eq_true_eq, bne_iff_ne] at hn
      have hkj : k = j := by
        rcases Nat.lt_trichotomy k j with lt | eq | gt
        · have := h k
          simp only [Memory.read, if_true, if_neg (show j ≠ k by omega)] at this
          exact absurd (this.trans (Memory.read_below hn.2 (by omega))) hm.1.2
        · exact eq
        · have := h j
          simp only [Memory.read, if_true, if_neg (show k ≠ j by omega)] at this
          exact absurd (this.symm.trans (Memory.read_below hm.2 (by omega))) hn.1.2
      subst hkj
      have hv : v = w := by simpa [Memory.read] using h k
      subst hv
      congr 1
      refine ih hm.2 hn.2 fun a => ?_
      by_cases ha : k = a
      · rw [← ha, Memory.read_below hm.2 (Nat.lt_succ_self k),
          Memory.read_below hn.2 (Nat.lt_succ_self k)]
      · simpa [Memory.read, ha] using h a

/-- Each byte of a cell has an address of its own. -/
theorem cellAddr_inj {c d : CellNo} {i j : Nat} (h : cellAddr c i = cellAddr d j) :
    c = d ∧ i % 64 = j % 64 := by
  unfold cellAddr at h
  refine ⟨Fin.ext ?_, ?_⟩ <;> omega

/-- A byte written to a cell is read there, and every other address reads as before. -/
theorem State.writeCell_read {s : State} (hm : s.mem.wf = true) (c : CellNo) (i : Nat) (b : Byte)
    (a : Nat) :
    (s.writeCell c i b).mem.read a = if a = cellAddr c i then b else s.mem.read a := by
  split
  · rename_i e
    rw [e]
    exact Memory.read_write_same hm
  · rename_i ne
    exact Memory.read_write_other _ (Ne.symm ne)

end Sys2Proof.Machine
end

