-- ==== Sys2Proof/Laws/State.lean ====
section
/-! SUPPORT. What each update of State and of a lane's unit leaves in each field. -/

namespace Sys2Proof.Machine

/-! ### State.setLane -/

@[simp] theorem State.setLane_pending (s : State) (l : Lane) (u : LaneUnit) :
    (s.setLane l u).pending = s.pending := by cases l <;> rfl

@[simp] theorem State.setLane_draws (s : State) (l : Lane) (u : LaneUnit) :
    (s.setLane l u).draws = s.draws := by cases l <;> rfl

@[simp] theorem State.setLane_resetLow (s : State) (l : Lane) (u : LaneUnit) :
    (s.setLane l u).resetLow = s.resetLow := by cases l <;> rfl

@[simp] theorem State.setLane_busOut (s : State) (l : Lane) (u : LaneUnit) :
    (s.setLane l u).busOut = s.busOut := by cases l <;> rfl

@[simp] theorem State.setLane_cmdst (s : State) (l : Lane) (u : LaneUnit) :
    (s.setLane l u).cmdst = s.cmdst := by cases l <;> rfl

@[simp] theorem State.setLane_cfg (s : State) (l : Lane) (u : LaneUnit) :
    (s.setLane l u).cfg = s.cfg := by cases l <;> rfl

@[simp] theorem State.setLane_routes (s : State) (l : Lane) (u : LaneUnit) :
    (s.setLane l u).routes = s.routes := by cases l <;> rfl

@[simp] theorem State.setLane_rtidx (s : State) (l : Lane) (u : LaneUnit) :
    (s.setLane l u).rtidx = s.rtidx := by cases l <;> rfl

@[simp] theorem State.setLane_freeList (s : State) (l : Lane) (u : LaneUnit) :
    (s.setLane l u).freeList = s.freeList := by cases l <;> rfl

@[simp] theorem State.setLane_records (s : State) (l : Lane) (u : LaneUnit) :
    (s.setLane l u).records = s.records := by cases l <;> rfl

@[simp] theorem State.setLane_mem (s : State) (l : Lane) (u : LaneUnit) :
    (s.setLane l u).mem = s.mem := by cases l <;> rfl

@[simp] theorem State.setLane_localCount (s : State) (l : Lane) (u : LaneUnit) :
    (s.setLane l u).localCount = s.localCount := by cases l <;> rfl

@[simp] theorem State.setLane_dqX (s : State) (l : Lane) (u : LaneUnit) :
    (s.setLane l u).dqX = s.dqX := by cases l <;> rfl

@[simp] theorem State.setLane_dqS (s : State) (l : Lane) (u : LaneUnit) :
    (s.setLane l u).dqS = s.dqS := by cases l <;> rfl

@[simp] theorem State.setLane_slot (s : State) (l : Lane) (u : LaneUnit) :
    (s.setLane l u).slot = s.slot := by cases l <;> rfl

@[simp] theorem State.setLane_readPos (s : State) (l : Lane) (u : LaneUnit) :
    (s.setLane l u).readPos = s.readPos := by cases l <;> rfl

@[simp] theorem State.setLane_readPast (s : State) (l : Lane) (u : LaneUnit) :
    (s.setLane l u).readPast = s.readPast := by cases l <;> rfl

@[simp] theorem State.setLane_composeOpen (s : State) (l : Lane) (u : LaneUnit) :
    (s.setLane l u).composeOpen = s.composeOpen := by cases l <;> rfl

@[simp] theorem State.setLane_composeHandle (s : State) (l : Lane) (u : LaneUnit) :
    (s.setLane l u).composeHandle = s.composeHandle := by cases l <;> rfl

@[simp] theorem State.setLane_composeLen (s : State) (l : Lane) (u : LaneUnit) :
    (s.setLane l u).composeLen = s.composeLen := by cases l <;> rfl

@[simp] theorem State.setLane_noCells (s : State) (l : Lane) (u : LaneUnit) :
    (s.setLane l u).noCells = s.noCells := by cases l <;> rfl

@[simp] theorem State.setLane_tooLong (s : State) (l : Lane) (u : LaneUnit) :
    (s.setLane l u).tooLong = s.tooLong := by cases l <;> rfl

@[simp] theorem State.setLane_reports (s : State) (l : Lane) (u : LaneUnit) :
    (s.setLane l u).reports = s.reports := by cases l <;> rfl

@[simp] theorem State.setLane_sdest (s : State) (l : Lane) (u : LaneUnit) :
    (s.setLane l u).sdest = s.sdest := by cases l <;> rfl

@[simp] theorem State.setLane_sctl (s : State) (l : Lane) (u : LaneUnit) :
    (s.setLane l u).sctl = s.sctl := by cases l <;> rfl

@[simp] theorem State.setLane_stag (s : State) (l : Lane) (u : LaneUnit) :
    (s.setLane l u).stag = s.stag := by cases l <;> rfl

@[simp] theorem State.setLane_evPend (s : State) (l : Lane) (u : LaneUnit) :
    (s.setLane l u).evPend = s.evPend := by cases l <;> rfl

@[simp] theorem State.setLane_evEnable (s : State) (l : Lane) (u : LaneUnit) :
    (s.setLane l u).evEnable = s.evEnable := by cases l <;> rfl

@[simp] theorem State.setLane_counters (s : State) (l : Lane) (u : LaneUnit) :
    (s.setLane l u).counters = s.counters := by cases l <;> rfl

@[simp] theorem State.setLane_csel (s : State) (l : Lane) (u : LaneUnit) :
    (s.setLane l u).csel = s.csel := by cases l <;> rfl

/-! ### State.modLane -/

@[simp] theorem State.modLane_pending (s : State) (l : Lane) (f : LaneUnit → LaneUnit) :
    (s.modLane l f).pending = s.pending := by cases l <;> rfl

@[simp] theorem State.modLane_draws (s : State) (l : Lane) (f : LaneUnit → LaneUnit) :
    (s.modLane l f).draws = s.draws := by cases l <;> rfl

@[simp] theorem State.modLane_resetLow (s : State) (l : Lane) (f : LaneUnit → LaneUnit) :
    (s.modLane l f).resetLow = s.resetLow := by cases l <;> rfl

@[simp] theorem State.modLane_busOut (s : State) (l : Lane) (f : LaneUnit → LaneUnit) :
    (s.modLane l f).busOut = s.busOut := by cases l <;> rfl

@[simp] theorem State.modLane_cmdst (s : State) (l : Lane) (f : LaneUnit → LaneUnit) :
    (s.modLane l f).cmdst = s.cmdst := by cases l <;> rfl

@[simp] theorem State.modLane_cfg (s : State) (l : Lane) (f : LaneUnit → LaneUnit) :
    (s.modLane l f).cfg = s.cfg := by cases l <;> rfl

@[simp] theorem State.modLane_routes (s : State) (l : Lane) (f : LaneUnit → LaneUnit) :
    (s.modLane l f).routes = s.routes := by cases l <;> rfl

@[simp] theorem State.modLane_rtidx (s : State) (l : Lane) (f : LaneUnit → LaneUnit) :
    (s.modLane l f).rtidx = s.rtidx := by cases l <;> rfl

@[simp] theorem State.modLane_freeList (s : State) (l : Lane) (f : LaneUnit → LaneUnit) :
    (s.modLane l f).freeList = s.freeList := by cases l <;> rfl

@[simp] theorem State.modLane_records (s : State) (l : Lane) (f : LaneUnit → LaneUnit) :
    (s.modLane l f).records = s.records := by cases l <;> rfl

@[simp] theorem State.modLane_mem (s : State) (l : Lane) (f : LaneUnit → LaneUnit) :
    (s.modLane l f).mem = s.mem := by cases l <;> rfl

@[simp] theorem State.modLane_localCount (s : State) (l : Lane) (f : LaneUnit → LaneUnit) :
    (s.modLane l f).localCount = s.localCount := by cases l <;> rfl

@[simp] theorem State.modLane_dqX (s : State) (l : Lane) (f : LaneUnit → LaneUnit) :
    (s.modLane l f).dqX = s.dqX := by cases l <;> rfl

@[simp] theorem State.modLane_dqS (s : State) (l : Lane) (f : LaneUnit → LaneUnit) :
    (s.modLane l f).dqS = s.dqS := by cases l <;> rfl

@[simp] theorem State.modLane_slot (s : State) (l : Lane) (f : LaneUnit → LaneUnit) :
    (s.modLane l f).slot = s.slot := by cases l <;> rfl

@[simp] theorem State.modLane_readPos (s : State) (l : Lane) (f : LaneUnit → LaneUnit) :
    (s.modLane l f).readPos = s.readPos := by cases l <;> rfl

@[simp] theorem State.modLane_readPast (s : State) (l : Lane) (f : LaneUnit → LaneUnit) :
    (s.modLane l f).readPast = s.readPast := by cases l <;> rfl

@[simp] theorem State.modLane_composeOpen (s : State) (l : Lane) (f : LaneUnit → LaneUnit) :
    (s.modLane l f).composeOpen = s.composeOpen := by cases l <;> rfl

@[simp] theorem State.modLane_composeHandle (s : State) (l : Lane) (f : LaneUnit → LaneUnit) :
    (s.modLane l f).composeHandle = s.composeHandle := by cases l <;> rfl

@[simp] theorem State.modLane_composeLen (s : State) (l : Lane) (f : LaneUnit → LaneUnit) :
    (s.modLane l f).composeLen = s.composeLen := by cases l <;> rfl

@[simp] theorem State.modLane_noCells (s : State) (l : Lane) (f : LaneUnit → LaneUnit) :
    (s.modLane l f).noCells = s.noCells := by cases l <;> rfl

@[simp] theorem State.modLane_tooLong (s : State) (l : Lane) (f : LaneUnit → LaneUnit) :
    (s.modLane l f).tooLong = s.tooLong := by cases l <;> rfl

@[simp] theorem State.modLane_reports (s : State) (l : Lane) (f : LaneUnit → LaneUnit) :
    (s.modLane l f).reports = s.reports := by cases l <;> rfl

@[simp] theorem State.modLane_sdest (s : State) (l : Lane) (f : LaneUnit → LaneUnit) :
    (s.modLane l f).sdest = s.sdest := by cases l <;> rfl

@[simp] theorem State.modLane_sctl (s : State) (l : Lane) (f : LaneUnit → LaneUnit) :
    (s.modLane l f).sctl = s.sctl := by cases l <;> rfl

@[simp] theorem State.modLane_stag (s : State) (l : Lane) (f : LaneUnit → LaneUnit) :
    (s.modLane l f).stag = s.stag := by cases l <;> rfl

@[simp] theorem State.modLane_evPend (s : State) (l : Lane) (f : LaneUnit → LaneUnit) :
    (s.modLane l f).evPend = s.evPend := by cases l <;> rfl

@[simp] theorem State.modLane_evEnable (s : State) (l : Lane) (f : LaneUnit → LaneUnit) :
    (s.modLane l f).evEnable = s.evEnable := by cases l <;> rfl

@[simp] theorem State.modLane_counters (s : State) (l : Lane) (f : LaneUnit → LaneUnit) :
    (s.modLane l f).counters = s.counters := by cases l <;> rfl

@[simp] theorem State.modLane_csel (s : State) (l : Lane) (f : LaneUnit → LaneUnit) :
    (s.modLane l f).csel = s.csel := by cases l <;> rfl

/-! ### raise -/

@[simp] theorem raise_pending (c : Cause) (s : State) :
    (raise c s).pending = s.pending := rfl

@[simp] theorem raise_draws (c : Cause) (s : State) :
    (raise c s).draws = s.draws := rfl

@[simp] theorem raise_resetLow (c : Cause) (s : State) :
    (raise c s).resetLow = s.resetLow := rfl

@[simp] theorem raise_busOut (c : Cause) (s : State) :
    (raise c s).busOut = s.busOut := rfl

@[simp] theorem raise_cmdst (c : Cause) (s : State) :
    (raise c s).cmdst = s.cmdst := rfl

@[simp] theorem raise_cfg (c : Cause) (s : State) :
    (raise c s).cfg = s.cfg := rfl

@[simp] theorem raise_routes (c : Cause) (s : State) :
    (raise c s).routes = s.routes := rfl

@[simp] theorem raise_rtidx (c : Cause) (s : State) :
    (raise c s).rtidx = s.rtidx := rfl

@[simp] theorem raise_freeList (c : Cause) (s : State) :
    (raise c s).freeList = s.freeList := rfl

@[simp] theorem raise_records (c : Cause) (s : State) :
    (raise c s).records = s.records := rfl

@[simp] theorem raise_mem (c : Cause) (s : State) :
    (raise c s).mem = s.mem := rfl

@[simp] theorem raise_localCount (c : Cause) (s : State) :
    (raise c s).localCount = s.localCount := rfl

@[simp] theorem raise_laneW (c : Cause) (s : State) :
    (raise c s).laneW = s.laneW := rfl

@[simp] theorem raise_laneE (c : Cause) (s : State) :
    (raise c s).laneE = s.laneE := rfl

@[simp] theorem raise_dqX (c : Cause) (s : State) :
    (raise c s).dqX = s.dqX := rfl

@[simp] theorem raise_dqS (c : Cause) (s : State) :
    (raise c s).dqS = s.dqS := rfl

@[simp] theorem raise_slot (c : Cause) (s : State) :
    (raise c s).slot = s.slot := rfl

@[simp] theorem raise_readPos (c : Cause) (s : State) :
    (raise c s).readPos = s.readPos := rfl

@[simp] theorem raise_readPast (c : Cause) (s : State) :
    (raise c s).readPast = s.readPast := rfl

@[simp] theorem raise_composeOpen (c : Cause) (s : State) :
    (raise c s).composeOpen = s.composeOpen := rfl

@[simp] theorem raise_composeHandle (c : Cause) (s : State) :
    (raise c s).composeHandle = s.composeHandle := rfl

@[simp] theorem raise_composeLen (c : Cause) (s : State) :
    (raise c s).composeLen = s.composeLen := rfl

@[simp] theorem raise_noCells (c : Cause) (s : State) :
    (raise c s).noCells = s.noCells := rfl

@[simp] theorem raise_tooLong (c : Cause) (s : State) :
    (raise c s).tooLong = s.tooLong := rfl

@[simp] theorem raise_reports (c : Cause) (s : State) :
    (raise c s).reports = s.reports := rfl

@[simp] theorem raise_sdest (c : Cause) (s : State) :
    (raise c s).sdest = s.sdest := rfl

@[simp] theorem raise_sctl (c : Cause) (s : State) :
    (raise c s).sctl = s.sctl := rfl

@[simp] theorem raise_stag (c : Cause) (s : State) :
    (raise c s).stag = s.stag := rfl

@[simp] theorem raise_evEnable (c : Cause) (s : State) :
    (raise c s).evEnable = s.evEnable := rfl

@[simp] theorem raise_counters (c : Cause) (s : State) :
    (raise c s).counters = s.counters := rfl

@[simp] theorem raise_csel (c : Cause) (s : State) :
    (raise c s).csel = s.csel := rfl

@[simp] theorem raise_evPend (c : Cause) (s : State) :
    (raise c s).evPend = s.evPend ||| c.mask := rfl

/-! ### taken -/

@[simp] theorem taken_pending (s : State) :
    (taken s).pending = s.pending := rfl

@[simp] theorem taken_draws (s : State) :
    (taken s).draws = s.draws := rfl

@[simp] theorem taken_resetLow (s : State) :
    (taken s).resetLow = s.resetLow := rfl

@[simp] theorem taken_busOut (s : State) :
    (taken s).busOut = s.busOut := rfl

@[simp] theorem taken_cfg (s : State) :
    (taken s).cfg = s.cfg := rfl

@[simp] theorem taken_routes (s : State) :
    (taken s).routes = s.routes := rfl

@[simp] theorem taken_rtidx (s : State) :
    (taken s).rtidx = s.rtidx := rfl

@[simp] theorem taken_freeList (s : State) :
    (taken s).freeList = s.freeList := rfl

@[simp] theorem taken_records (s : State) :
    (taken s).records = s.records := rfl

@[simp] theorem taken_mem (s : State) :
    (taken s).mem = s.mem := rfl

@[simp] theorem taken_localCount (s : State) :
    (taken s).localCount = s.localCount := rfl

@[simp] theorem taken_laneW (s : State) :
    (taken s).laneW = s.laneW := rfl

@[simp] theorem taken_laneE (s : State) :
    (taken s).laneE = s.laneE := rfl

@[simp] theorem taken_dqX (s : State) :
    (taken s).dqX = s.dqX := rfl

@[simp] theorem taken_dqS (s : State) :
    (taken s).dqS = s.dqS := rfl

@[simp] theorem taken_slot (s : State) :
    (taken s).slot = s.slot := rfl

@[simp] theorem taken_readPos (s : State) :
    (taken s).readPos = s.readPos := rfl

@[simp] theorem taken_readPast (s : State) :
    (taken s).readPast = s.readPast := rfl

@[simp] theorem taken_composeOpen (s : State) :
    (taken s).composeOpen = s.composeOpen := rfl

@[simp] theorem taken_composeHandle (s : State) :
    (taken s).composeHandle = s.composeHandle := rfl

@[simp] theorem taken_composeLen (s : State) :
    (taken s).composeLen = s.composeLen := rfl

@[simp] theorem taken_noCells (s : State) :
    (taken s).noCells = s.noCells := rfl

@[simp] theorem taken_tooLong (s : State) :
    (taken s).tooLong = s.tooLong := rfl

@[simp] theorem taken_reports (s : State) :
    (taken s).reports = s.reports := rfl

@[simp] theorem taken_sdest (s : State) :
    (taken s).sdest = s.sdest := rfl

@[simp] theorem taken_sctl (s : State) :
    (taken s).sctl = s.sctl := rfl

@[simp] theorem taken_stag (s : State) :
    (taken s).stag = s.stag := rfl

@[simp] theorem taken_evPend (s : State) :
    (taken s).evPend = s.evPend := rfl

@[simp] theorem taken_evEnable (s : State) :
    (taken s).evEnable = s.evEnable := rfl

@[simp] theorem taken_counters (s : State) :
    (taken s).counters = s.counters := rfl

@[simp] theorem taken_csel (s : State) :
    (taken s).csel = s.csel := rfl

@[simp] theorem taken_cmdst (s : State) : (taken s).cmdst = .taken := rfl

/-! ### refuse -/

@[simp] theorem refuse_pending (r : CmdResult) (s : State) :
    (refuse r s).pending = s.pending := rfl

@[simp] theorem refuse_draws (r : CmdResult) (s : State) :
    (refuse r s).draws = s.draws := rfl

@[simp] theorem refuse_resetLow (r : CmdResult) (s : State) :
    (refuse r s).resetLow = s.resetLow := rfl

@[simp] theorem refuse_busOut (r : CmdResult) (s : State) :
    (refuse r s).busOut = s.busOut := rfl

@[simp] theorem refuse_cfg (r : CmdResult) (s : State) :
    (refuse r s).cfg = s.cfg := rfl

@[simp] theorem refuse_routes (r : CmdResult) (s : State) :
    (refuse r s).routes = s.routes := rfl

@[simp] theorem refuse_rtidx (r : CmdResult) (s : State) :
    (refuse r s).rtidx = s.rtidx := rfl

@[simp] theorem refuse_freeList (r : CmdResult) (s : State) :
    (refuse r s).freeList = s.freeList := rfl

@[simp] theorem refuse_records (r : CmdResult) (s : State) :
    (refuse r s).records = s.records := rfl

@[simp] theorem refuse_mem (r : CmdResult) (s : State) :
    (refuse r s).mem = s.mem := rfl

@[simp] theorem refuse_localCount (r : CmdResult) (s : State) :
    (refuse r s).localCount = s.localCount := rfl

@[simp] theorem refuse_laneW (r : CmdResult) (s : State) :
    (refuse r s).laneW = s.laneW := rfl

@[simp] theorem refuse_laneE (r : CmdResult) (s : State) :
    (refuse r s).laneE = s.laneE := rfl

@[simp] theorem refuse_dqX (r : CmdResult) (s : State) :
    (refuse r s).dqX = s.dqX := rfl

@[simp] theorem refuse_dqS (r : CmdResult) (s : State) :
    (refuse r s).dqS = s.dqS := rfl

@[simp] theorem refuse_slot (r : CmdResult) (s : State) :
    (refuse r s).slot = s.slot := rfl

@[simp] theorem refuse_readPos (r : CmdResult) (s : State) :
    (refuse r s).readPos = s.readPos := rfl

@[simp] theorem refuse_readPast (r : CmdResult) (s : State) :
    (refuse r s).readPast = s.readPast := rfl

@[simp] theorem refuse_composeOpen (r : CmdResult) (s : State) :
    (refuse r s).composeOpen = s.composeOpen := rfl

@[simp] theorem refuse_composeHandle (r : CmdResult) (s : State) :
    (refuse r s).composeHandle = s.composeHandle := rfl

@[simp] theorem refuse_composeLen (r : CmdResult) (s : State) :
    (refuse r s).composeLen = s.composeLen := rfl

@[simp] theorem refuse_noCells (r : CmdResult) (s : State) :
    (refuse r s).noCells = s.noCells := rfl

@[simp] theorem refuse_tooLong (r : CmdResult) (s : State) :
    (refuse r s).tooLong = s.tooLong := rfl

@[simp] theorem refuse_reports (r : CmdResult) (s : State) :
    (refuse r s).reports = s.reports := rfl

@[simp] theorem refuse_sdest (r : CmdResult) (s : State) :
    (refuse r s).sdest = s.sdest := rfl

@[simp] theorem refuse_sctl (r : CmdResult) (s : State) :
    (refuse r s).sctl = s.sctl := rfl

@[simp] theorem refuse_stag (r : CmdResult) (s : State) :
    (refuse r s).stag = s.stag := rfl

@[simp] theorem refuse_evEnable (r : CmdResult) (s : State) :
    (refuse r s).evEnable = s.evEnable := rfl

@[simp] theorem refuse_counters (r : CmdResult) (s : State) :
    (refuse r s).counters = s.counters := rfl

@[simp] theorem refuse_csel (r : CmdResult) (s : State) :
    (refuse r s).csel = s.csel := rfl

@[simp] theorem refuse_cmdst (r : CmdResult) (s : State) : (refuse r s).cmdst = r := rfl

/-- Everything an increment changes (R167): its counter, which stays at 65535, and COUNT_HALF. -/
theorem bump_eq (c : Counter) (s : State) :
    bump c s =
      { s with
        counters := s.counters.set c.index
          (if s.counter c = 0xFFFF then s.counter c else s.counter c + 1)
        evPend := if s.counter c = 32767 then s.evPend ||| Cause.countHalf.mask else s.evPend } := by
  have same : s.counters.set c.index (s.counter c) = s.counters := Vector.set_getElem_self _
  by_cases h : s.counter c = 0xFFFF
  · have h3 : ¬s.counter c = 32767 := by rw [h]; decide
    simp only [bump, if_pos h, if_neg h3, same]
  · by_cases h3 : s.counter c = 32767
    · simp only [bump, if_neg h, if_pos h3, raise]
    · simp only [bump, if_neg h, if_neg h3]

/-! ### bump -/

@[simp] theorem bump_pending (c : Counter) (s : State) :
    (bump c s).pending = s.pending := by rw [bump_eq]

@[simp] theorem bump_draws (c : Counter) (s : State) :
    (bump c s).draws = s.draws := by rw [bump_eq]

@[simp] theorem bump_resetLow (c : Counter) (s : State) :
    (bump c s).resetLow = s.resetLow := by rw [bump_eq]

@[simp] theorem bump_busOut (c : Counter) (s : State) :
    (bump c s).busOut = s.busOut := by rw [bump_eq]

@[simp] theorem bump_cmdst (c : Counter) (s : State) :
    (bump c s).cmdst = s.cmdst := by rw [bump_eq]

@[simp] theorem bump_cfg (c : Counter) (s : State) :
    (bump c s).cfg = s.cfg := by rw [bump_eq]

@[simp] theorem bump_routes (c : Counter) (s : State) :
    (bump c s).routes = s.routes := by rw [bump_eq]

@[simp] theorem bump_rtidx (c : Counter) (s : State) :
    (bump c s).rtidx = s.rtidx := by rw [bump_eq]

@[simp] theorem bump_freeList (c : Counter) (s : State) :
    (bump c s).freeList = s.freeList := by rw [bump_eq]

@[simp] theorem bump_records (c : Counter) (s : State) :
    (bump c s).records = s.records := by rw [bump_eq]

@[simp] theorem bump_mem (c : Counter) (s : State) :
    (bump c s).mem = s.mem := by rw [bump_eq]

@[simp] theorem bump_localCount (c : Counter) (s : State) :
    (bump c s).localCount = s.localCount := by rw [bump_eq]

@[simp] theorem bump_laneW (c : Counter) (s : State) :
    (bump c s).laneW = s.laneW := by rw [bump_eq]

@[simp] theorem bump_laneE (c : Counter) (s : State) :
    (bump c s).laneE = s.laneE := by rw [bump_eq]

@[simp] theorem bump_dqX (c : Counter) (s : State) :
    (bump c s).dqX = s.dqX := by rw [bump_eq]

@[simp] theorem bump_dqS (c : Counter) (s : State) :
    (bump c s).dqS = s.dqS := by rw [bump_eq]

@[simp] theorem bump_slot (c : Counter) (s : State) :
    (bump c s).slot = s.slot := by rw [bump_eq]

@[simp] theorem bump_readPos (c : Counter) (s : State) :
    (bump c s).readPos = s.readPos := by rw [bump_eq]

@[simp] theorem bump_readPast (c : Counter) (s : State) :
    (bump c s).readPast = s.readPast := by rw [bump_eq]

@[simp] theorem bump_composeOpen (c : Counter) (s : State) :
    (bump c s).composeOpen = s.composeOpen := by rw [bump_eq]

@[simp] theorem bump_composeHandle (c : Counter) (s : State) :
    (bump c s).composeHandle = s.composeHandle := by rw [bump_eq]

@[simp] theorem bump_composeLen (c : Counter) (s : State) :
    (bump c s).composeLen = s.composeLen := by rw [bump_eq]

@[simp] theorem bump_noCells (c : Counter) (s : State) :
    (bump c s).noCells = s.noCells := by rw [bump_eq]

@[simp] theorem bump_tooLong (c : Counter) (s : State) :
    (bump c s).tooLong = s.tooLong := by rw [bump_eq]

@[simp] theorem bump_reports (c : Counter) (s : State) :
    (bump c s).reports = s.reports := by rw [bump_eq]

@[simp] theorem bump_sdest (c : Counter) (s : State) :
    (bump c s).sdest = s.sdest := by rw [bump_eq]

@[simp] theorem bump_sctl (c : Counter) (s : State) :
    (bump c s).sctl = s.sctl := by rw [bump_eq]

@[simp] theorem bump_stag (c : Counter) (s : State) :
    (bump c s).stag = s.stag := by rw [bump_eq]

@[simp] theorem bump_evEnable (c : Counter) (s : State) :
    (bump c s).evEnable = s.evEnable := by rw [bump_eq]

@[simp] theorem bump_csel (c : Counter) (s : State) :
    (bump c s).csel = s.csel := by rw [bump_eq]

/-! ### State.setRecord -/

@[simp] theorem State.setRecord_pending (s : State) (h : Handle) (r : Record) :
    (s.setRecord h r).pending = s.pending := rfl

@[simp] theorem State.setRecord_draws (s : State) (h : Handle) (r : Record) :
    (s.setRecord h r).draws = s.draws := rfl

@[simp] theorem State.setRecord_resetLow (s : State) (h : Handle) (r : Record) :
    (s.setRecord h r).resetLow = s.resetLow := rfl

@[simp] theorem State.setRecord_busOut (s : State) (h : Handle) (r : Record) :
    (s.setRecord h r).busOut = s.busOut := rfl

@[simp] theorem State.setRecord_cmdst (s : State) (h : Handle) (r : Record) :
    (s.setRecord h r).cmdst = s.cmdst := rfl

@[simp] theorem State.setRecord_cfg (s : State) (h : Handle) (r : Record) :
    (s.setRecord h r).cfg = s.cfg := rfl

@[simp] theorem State.setRecord_routes (s : State) (h : Handle) (r : Record) :
    (s.setRecord h r).routes = s.routes := rfl

@[simp] theorem State.setRecord_rtidx (s : State) (h : Handle) (r : Record) :
    (s.setRecord h r).rtidx = s.rtidx := rfl

@[simp] theorem State.setRecord_freeList (s : State) (h : Handle) (r : Record) :
    (s.setRecord h r).freeList = s.freeList := rfl

@[simp] theorem State.setRecord_mem (s : State) (h : Handle) (r : Record) :
    (s.setRecord h r).mem = s.mem := rfl

@[simp] theorem State.setRecord_localCount (s : State) (h : Handle) (r : Record) :
    (s.setRecord h r).localCount = s.localCount := rfl

@[simp] theorem State.setRecord_laneW (s : State) (h : Handle) (r : Record) :
    (s.setRecord h r).laneW = s.laneW := rfl

@[simp] theorem State.setRecord_laneE (s : State) (h : Handle) (r : Record) :
    (s.setRecord h r).laneE = s.laneE := rfl

@[simp] theorem State.setRecord_dqX (s : State) (h : Handle) (r : Record) :
    (s.setRecord h r).dqX = s.dqX := rfl

@[simp] theorem State.setRecord_dqS (s : State) (h : Handle) (r : Record) :
    (s.setRecord h r).dqS = s.dqS := rfl

@[simp] theorem State.setRecord_slot (s : State) (h : Handle) (r : Record) :
    (s.setRecord h r).slot = s.slot := rfl

@[simp] theorem State.setRecord_readPos (s : State) (h : Handle) (r : Record) :
    (s.setRecord h r).readPos = s.readPos := rfl

@[simp] theorem State.setRecord_readPast (s : State) (h : Handle) (r : Record) :
    (s.setRecord h r).readPast = s.readPast := rfl

@[simp] theorem State.setRecord_composeOpen (s : State) (h : Handle) (r : Record) :
    (s.setRecord h r).composeOpen = s.composeOpen := rfl

@[simp] theorem State.setRecord_composeHandle (s : State) (h : Handle) (r : Record) :
    (s.setRecord h r).composeHandle = s.composeHandle := rfl

@[simp] theorem State.setRecord_composeLen (s : State) (h : Handle) (r : Record) :
    (s.setRecord h r).composeLen = s.composeLen := rfl

@[simp] theorem State.setRecord_noCells (s : State) (h : Handle) (r : Record) :
    (s.setRecord h r).noCells = s.noCells := rfl

@[simp] theorem State.setRecord_tooLong (s : State) (h : Handle) (r : Record) :
    (s.setRecord h r).tooLong = s.tooLong := rfl

@[simp] theorem State.setRecord_reports (s : State) (h : Handle) (r : Record) :
    (s.setRecord h r).reports = s.reports := rfl

@[simp] theorem State.setRecord_sdest (s : State) (h : Handle) (r : Record) :
    (s.setRecord h r).sdest = s.sdest := rfl

@[simp] theorem State.setRecord_sctl (s : State) (h : Handle) (r : Record) :
    (s.setRecord h r).sctl = s.sctl := rfl

@[simp] theorem State.setRecord_stag (s : State) (h : Handle) (r : Record) :
    (s.setRecord h r).stag = s.stag := rfl

@[simp] theorem State.setRecord_evPend (s : State) (h : Handle) (r : Record) :
    (s.setRecord h r).evPend = s.evPend := rfl

@[simp] theorem State.setRecord_evEnable (s : State) (h : Handle) (r : Record) :
    (s.setRecord h r).evEnable = s.evEnable := rfl

@[simp] theorem State.setRecord_counters (s : State) (h : Handle) (r : Record) :
    (s.setRecord h r).counters = s.counters := rfl

@[simp] theorem State.setRecord_csel (s : State) (h : Handle) (r : Record) :
    (s.setRecord h r).csel = s.csel := rfl

/-! ### State.writeCell -/

@[simp] theorem State.writeCell_pending (s : State) (c : CellNo) (i : Nat) (b : Byte) :
    (s.writeCell c i b).pending = s.pending := rfl

@[simp] theorem State.writeCell_draws (s : State) (c : CellNo) (i : Nat) (b : Byte) :
    (s.writeCell c i b).draws = s.draws := rfl

@[simp] theorem State.writeCell_resetLow (s : State) (c : CellNo) (i : Nat) (b : Byte) :
    (s.writeCell c i b).resetLow = s.resetLow := rfl

@[simp] theorem State.writeCell_busOut (s : State) (c : CellNo) (i : Nat) (b : Byte) :
    (s.writeCell c i b).busOut = s.busOut := rfl

@[simp] theorem State.writeCell_cmdst (s : State) (c : CellNo) (i : Nat) (b : Byte) :
    (s.writeCell c i b).cmdst = s.cmdst := rfl

@[simp] theorem State.writeCell_cfg (s : State) (c : CellNo) (i : Nat) (b : Byte) :
    (s.writeCell c i b).cfg = s.cfg := rfl

@[simp] theorem State.writeCell_routes (s : State) (c : CellNo) (i : Nat) (b : Byte) :
    (s.writeCell c i b).routes = s.routes := rfl

@[simp] theorem State.writeCell_rtidx (s : State) (c : CellNo) (i : Nat) (b : Byte) :
    (s.writeCell c i b).rtidx = s.rtidx := rfl

@[simp] theorem State.writeCell_freeList (s : State) (c : CellNo) (i : Nat) (b : Byte) :
    (s.writeCell c i b).freeList = s.freeList := rfl

@[simp] theorem State.writeCell_records (s : State) (c : CellNo) (i : Nat) (b : Byte) :
    (s.writeCell c i b).records = s.records := rfl

@[simp] theorem State.writeCell_localCount (s : State) (c : CellNo) (i : Nat) (b : Byte) :
    (s.writeCell c i b).localCount = s.localCount := rfl

@[simp] theorem State.writeCell_laneW (s : State) (c : CellNo) (i : Nat) (b : Byte) :
    (s.writeCell c i b).laneW = s.laneW := rfl

@[simp] theorem State.writeCell_laneE (s : State) (c : CellNo) (i : Nat) (b : Byte) :
    (s.writeCell c i b).laneE = s.laneE := rfl

@[simp] theorem State.writeCell_dqX (s : State) (c : CellNo) (i : Nat) (b : Byte) :
    (s.writeCell c i b).dqX = s.dqX := rfl

@[simp] theorem State.writeCell_dqS (s : State) (c : CellNo) (i : Nat) (b : Byte) :
    (s.writeCell c i b).dqS = s.dqS := rfl

@[simp] theorem State.writeCell_slot (s : State) (c : CellNo) (i : Nat) (b : Byte) :
    (s.writeCell c i b).slot = s.slot := rfl

@[simp] theorem State.writeCell_readPos (s : State) (c : CellNo) (i : Nat) (b : Byte) :
    (s.writeCell c i b).readPos = s.readPos := rfl

@[simp] theorem State.writeCell_readPast (s : State) (c : CellNo) (i : Nat) (b : Byte) :
    (s.writeCell c i b).readPast = s.readPast := rfl

@[simp] theorem State.writeCell_composeOpen (s : State) (c : CellNo) (i : Nat) (b : Byte) :
    (s.writeCell c i b).composeOpen = s.composeOpen := rfl

@[simp] theorem State.writeCell_composeHandle (s : State) (c : CellNo) (i : Nat) (b : Byte) :
    (s.writeCell c i b).composeHandle = s.composeHandle := rfl

@[simp] theorem State.writeCell_composeLen (s : State) (c : CellNo) (i : Nat) (b : Byte) :
    (s.writeCell c i b).composeLen = s.composeLen := rfl

@[simp] theorem State.writeCell_noCells (s : State) (c : CellNo) (i : Nat) (b : Byte) :
    (s.writeCell c i b).noCells = s.noCells := rfl

@[simp] theorem State.writeCell_tooLong (s : State) (c : CellNo) (i : Nat) (b : Byte) :
    (s.writeCell c i b).tooLong = s.tooLong := rfl

@[simp] theorem State.writeCell_reports (s : State) (c : CellNo) (i : Nat) (b : Byte) :
    (s.writeCell c i b).reports = s.reports := rfl

@[simp] theorem State.writeCell_sdest (s : State) (c : CellNo) (i : Nat) (b : Byte) :
    (s.writeCell c i b).sdest = s.sdest := rfl

@[simp] theorem State.writeCell_sctl (s : State) (c : CellNo) (i : Nat) (b : Byte) :
    (s.writeCell c i b).sctl = s.sctl := rfl

@[simp] theorem State.writeCell_stag (s : State) (c : CellNo) (i : Nat) (b : Byte) :
    (s.writeCell c i b).stag = s.stag := rfl

@[simp] theorem State.writeCell_evPend (s : State) (c : CellNo) (i : Nat) (b : Byte) :
    (s.writeCell c i b).evPend = s.evPend := rfl

@[simp] theorem State.writeCell_evEnable (s : State) (c : CellNo) (i : Nat) (b : Byte) :
    (s.writeCell c i b).evEnable = s.evEnable := rfl

@[simp] theorem State.writeCell_counters (s : State) (c : CellNo) (i : Nat) (b : Byte) :
    (s.writeCell c i b).counters = s.counters := rfl

@[simp] theorem State.writeCell_csel (s : State) (c : CellNo) (i : Nat) (b : Byte) :
    (s.writeCell c i b).csel = s.csel := rfl

/-! ### State.setDq -/

@[simp] theorem State.setDq_pending (s : State) (c : TrafficClass) (q : List Handle) :
    (s.setDq c q).pending = s.pending := by cases c <;> rfl

@[simp] theorem State.setDq_draws (s : State) (c : TrafficClass) (q : List Handle) :
    (s.setDq c q).draws = s.draws := by cases c <;> rfl

@[simp] theorem State.setDq_resetLow (s : State) (c : TrafficClass) (q : List Handle) :
    (s.setDq c q).resetLow = s.resetLow := by cases c <;> rfl

@[simp] theorem State.setDq_busOut (s : State) (c : TrafficClass) (q : List Handle) :
    (s.setDq c q).busOut = s.busOut := by cases c <;> rfl

@[simp] theorem State.setDq_cmdst (s : State) (c : TrafficClass) (q : List Handle) :
    (s.setDq c q).cmdst = s.cmdst := by cases c <;> rfl

@[simp] theorem State.setDq_cfg (s : State) (c : TrafficClass) (q : List Handle) :
    (s.setDq c q).cfg = s.cfg := by cases c <;> rfl

@[simp] theorem State.setDq_routes (s : State) (c : TrafficClass) (q : List Handle) :
    (s.setDq c q).routes = s.routes := by cases c <;> rfl

@[simp] theorem State.setDq_rtidx (s : State) (c : TrafficClass) (q : List Handle) :
    (s.setDq c q).rtidx = s.rtidx := by cases c <;> rfl

@[simp] theorem State.setDq_freeList (s : State) (c : TrafficClass) (q : List Handle) :
    (s.setDq c q).freeList = s.freeList := by cases c <;> rfl

@[simp] theorem State.setDq_records (s : State) (c : TrafficClass) (q : List Handle) :
    (s.setDq c q).records = s.records := by cases c <;> rfl

@[simp] theorem State.setDq_mem (s : State) (c : TrafficClass) (q : List Handle) :
    (s.setDq c q).mem = s.mem := by cases c <;> rfl

@[simp] theorem State.setDq_localCount (s : State) (c : TrafficClass) (q : List Handle) :
    (s.setDq c q).localCount = s.localCount := by cases c <;> rfl

@[simp] theorem State.setDq_laneW (s : State) (c : TrafficClass) (q : List Handle) :
    (s.setDq c q).laneW = s.laneW := by cases c <;> rfl

@[simp] theorem State.setDq_laneE (s : State) (c : TrafficClass) (q : List Handle) :
    (s.setDq c q).laneE = s.laneE := by cases c <;> rfl

@[simp] theorem State.setDq_slot (s : State) (c : TrafficClass) (q : List Handle) :
    (s.setDq c q).slot = s.slot := by cases c <;> rfl

@[simp] theorem State.setDq_readPos (s : State) (c : TrafficClass) (q : List Handle) :
    (s.setDq c q).readPos = s.readPos := by cases c <;> rfl

@[simp] theorem State.setDq_readPast (s : State) (c : TrafficClass) (q : List Handle) :
    (s.setDq c q).readPast = s.readPast := by cases c <;> rfl

@[simp] theorem State.setDq_composeOpen (s : State) (c : TrafficClass) (q : List Handle) :
    (s.setDq c q).composeOpen = s.composeOpen := by cases c <;> rfl

@[simp] theorem State.setDq_composeHandle (s : State) (c : TrafficClass) (q : List Handle) :
    (s.setDq c q).composeHandle = s.composeHandle := by cases c <;> rfl

@[simp] theorem State.setDq_composeLen (s : State) (c : TrafficClass) (q : List Handle) :
    (s.setDq c q).composeLen = s.composeLen := by cases c <;> rfl

@[simp] theorem State.setDq_noCells (s : State) (c : TrafficClass) (q : List Handle) :
    (s.setDq c q).noCells = s.noCells := by cases c <;> rfl

@[simp] theorem State.setDq_tooLong (s : State) (c : TrafficClass) (q : List Handle) :
    (s.setDq c q).tooLong = s.tooLong := by cases c <;> rfl

@[simp] theorem State.setDq_reports (s : State) (c : TrafficClass) (q : List Handle) :
    (s.setDq c q).reports = s.reports := by cases c <;> rfl

@[simp] theorem State.setDq_sdest (s : State) (c : TrafficClass) (q : List Handle) :
    (s.setDq c q).sdest = s.sdest := by cases c <;> rfl

@[simp] theorem State.setDq_sctl (s : State) (c : TrafficClass) (q : List Handle) :
    (s.setDq c q).sctl = s.sctl := by cases c <;> rfl

@[simp] theorem State.setDq_stag (s : State) (c : TrafficClass) (q : List Handle) :
    (s.setDq c q).stag = s.stag := by cases c <;> rfl

@[simp] theorem State.setDq_evPend (s : State) (c : TrafficClass) (q : List Handle) :
    (s.setDq c q).evPend = s.evPend := by cases c <;> rfl

@[simp] theorem State.setDq_evEnable (s : State) (c : TrafficClass) (q : List Handle) :
    (s.setDq c q).evEnable = s.evEnable := by cases c <;> rfl

@[simp] theorem State.setDq_counters (s : State) (c : TrafficClass) (q : List Handle) :
    (s.setDq c q).counters = s.counters := by cases c <;> rfl

@[simp] theorem State.setDq_csel (s : State) (c : TrafficClass) (q : List Handle) :
    (s.setDq c q).csel = s.csel := by cases c <;> rfl

/-! ### Reading a lane or a record after an update -/

@[simp] theorem State.setLane_lane (s : State) (l : Lane) (u : LaneUnit) :
    (s.setLane l u).lane l = u := by cases l <;> rfl

@[simp] theorem State.setLane_lane_other (s : State) (l : Lane) (u : LaneUnit) :
    (s.setLane l u).lane (otherLane l) = s.lane (otherLane l) := by cases l <;> rfl

theorem State.setLane_lane_ne (s : State) {l k : Lane} (u : LaneUnit) (h : k ≠ l) :
    (s.setLane l u).lane k = s.lane k := by cases l <;> cases k <;> first | rfl | exact absurd rfl h

@[simp] theorem State.modLane_lane (s : State) (l : Lane) (f : LaneUnit → LaneUnit) :
    (s.modLane l f).lane l = f (s.lane l) := by cases l <;> rfl

@[simp] theorem State.modLane_lane_other (s : State) (l : Lane) (f : LaneUnit → LaneUnit) :
    (s.modLane l f).lane (otherLane l) = s.lane (otherLane l) := by cases l <;> rfl

theorem State.modLane_lane_ne (s : State) {l k : Lane} (f : LaneUnit → LaneUnit) (h : k ≠ l) :
    (s.modLane l f).lane k = s.lane k := State.setLane_lane_ne s _ h

@[simp] theorem State.setLane_setLane (s : State) (l : Lane) (u v : LaneUnit) :
    (s.setLane l u).setLane l v = s.setLane l v := by cases l <;> rfl

@[simp] theorem State.modLane_modLane (s : State) (l : Lane) (f g : LaneUnit → LaneUnit) :
    (s.modLane l f).modLane l g = s.modLane l fun u => g (f u) := by cases l <;> rfl

@[simp] theorem State.setLane_self (s : State) (l : Lane) : s.setLane l (s.lane l) = s := by
  cases l <;> rfl

@[simp] theorem raise_lane (c : Cause) (s : State) (l : Lane) :
    (raise c s).lane l = s.lane l := by cases l <;> simp [State.lane]

@[simp] theorem raise_record (c : Cause) (s : State) (k : Handle) :
    (raise c s).record k = s.record k := by simp [State.record]

@[simp] theorem taken_lane (s : State) (l : Lane) :
    (taken s).lane l = s.lane l := by cases l <;> simp [State.lane]

@[simp] theorem taken_record (s : State) (k : Handle) :
    (taken s).record k = s.record k := by simp [State.record]

@[simp] theorem refuse_lane (r : CmdResult) (s : State) (l : Lane) :
    (refuse r s).lane l = s.lane l := by cases l <;> simp [State.lane]

@[simp] theorem refuse_record (r : CmdResult) (s : State) (k : Handle) :
    (refuse r s).record k = s.record k := by simp [State.record]

@[simp] theorem bump_lane (c : Counter) (s : State) (l : Lane) :
    (bump c s).lane l = s.lane l := by cases l <;> simp [State.lane]

@[simp] theorem bump_record (c : Counter) (s : State) (k : Handle) :
    (bump c s).record k = s.record k := by simp [State.record]

@[simp] theorem State.setRecord_lane (s : State) (h : Handle) (r : Record) (l : Lane) :
    (s.setRecord h r).lane l = s.lane l := by cases l <;> simp [State.lane]

@[simp] theorem State.writeCell_lane (s : State) (c : CellNo) (i : Nat) (b : Byte) (l : Lane) :
    (s.writeCell c i b).lane l = s.lane l := by cases l <;> simp [State.lane]

@[simp] theorem State.writeCell_record (s : State) (c : CellNo) (i : Nat) (b : Byte) (k : Handle) :
    (s.writeCell c i b).record k = s.record k := by simp [State.record]

@[simp] theorem State.setDq_lane (s : State) (c : TrafficClass) (q : List Handle) (l : Lane) :
    (s.setDq c q).lane l = s.lane l := by cases l <;> simp [State.lane]

@[simp] theorem State.setDq_record (s : State) (c : TrafficClass) (q : List Handle) (k : Handle) :
    (s.setDq c q).record k = s.record k := by simp [State.record]

@[simp] theorem State.setLane_record (s : State) (l : Lane) (u : LaneUnit) (k : Handle) :
    (s.setLane l u).record k = s.record k := by simp [State.record]

@[simp] theorem State.modLane_record (s : State) (l : Lane) (f : LaneUnit → LaneUnit) (k : Handle) :
    (s.modLane l f).record k = s.record k := by simp [State.record]

@[simp] theorem State.setRecord_record (s : State) (h : Handle) (r : Record) :
    (s.setRecord h r).record h = r := by simp [State.record, State.setRecord]

theorem State.setRecord_record_ne (s : State) {h k : Handle} (r : Record) (hk : h ≠ k) :
    (s.setRecord h r).record k = s.record k := by
  have : h.val ≠ k.val := fun e => hk (Fin.ext e)
  simp [State.record, State.setRecord, this]

theorem bump_counter (c : Counter) (s : State) :
    (bump c s).counter c = if s.counter c = 0xFFFF then s.counter c else s.counter c + 1 := by
  rw [bump_eq]; simp [State.counter]

theorem bump_counter_ne (c d : Counter) (s : State) (h : c.index ≠ d.index) :
    (bump c s).counter d = s.counter d := by
  have h' : (c.index : Nat) ≠ d.index := fun e => h (Fin.ext e)
  rw [bump_eq]; simp [State.counter, h']

end Sys2Proof.Machine
end

