-- ==== Sys2Proof/Laws/Frame.lean ====
section
/-! SUPPORT. What the operations leave alone. Every operation of the lanes, the pool and the queues is
made of a few updates; a property that survives those updates survives every operation, by one lemma
per operation. The host's own state (SameHost) and the canonical form of the payload memory are two
such properties. -/

namespace Sys2Proof.Machine

variable {s t : State}

/-! ### The two relations are preorders -/

theorem SameSetup.refl (s : State) : SameSetup s s := by constructor <;> rfl

theorem SameHost.refl (s : State) : SameHost s s := by constructor <;> first | rfl | exact .refl s

theorem SameSetup.trans {u : State} (h : SameSetup s t) (k : SameSetup t u) : SameSetup s u := by
  constructor
  · exact k.pending.trans h.pending
  · exact k.draws.trans h.draws
  · exact k.resetLow.trans h.resetLow
  · exact k.cfg.trans h.cfg
  · exact k.routes.trans h.routes
  · exact k.rtidx.trans h.rtidx
  · exact k.sdest.trans h.sdest
  · exact k.sctl.trans h.sctl
  · exact k.stag.trans h.stag
  · exact k.evEnable.trans h.evEnable
  · exact k.csel.trans h.csel

theorem SameHost.trans {u : State} (h : SameHost s t) (k : SameHost t u) : SameHost s u := by
  constructor
  · exact h.toSameSetup.trans k.toSameSetup
  · exact k.busOut.trans h.busOut
  · exact k.cmdst.trans h.cmdst
  · exact k.slot.trans h.slot
  · exact k.readPos.trans h.readPos
  · exact k.readPast.trans h.readPast
  · exact k.composeOpen.trans h.composeOpen
  · exact k.composeHandle.trans h.composeHandle
  · exact k.composeLen.trans h.composeLen
  · exact k.noCells.trans h.noCells
  · exact k.tooLong.trans h.tooLong

/-! ### Updates -/

/-- The property `P` survives each update that the operations of the lanes are made of. -/
structure Survives (P : State → Prop) : Prop where
  setLane    : ∀ t l u, P t → P (t.setLane l u)
  raise      : ∀ t c, P t → P (raise c t)
  bump       : ∀ t c, P t → P (bump c t)
  setRecord  : ∀ t k r, P t → P (t.setRecord k r)
  writeCell  : ∀ t c i b, P t → P (t.writeCell c i b)
  setDq      : ∀ t c q, P t → P (t.setDq c q)
  freeCells  : ∀ t cs, P t → P { t with freeList := cs }
  countLocal : ∀ t n, P t → P { t with localCount := n }
  queue      : ∀ t rs, P t → P { t with reports := rs }

/-- `P` holds of a state, for a property known to survive the updates. -/
def Kept {P : State → Prop} (_ : Survives P) (t : State) : Prop := P t

variable {P : State → Prop} {C : Survives P}

theorem Kept.setLane (h : Kept C t) (l : Lane) (u : LaneUnit) : Kept C (t.setLane l u) :=
  C.setLane t l u h

theorem Kept.modLane (h : Kept C t) (l : Lane) (f : LaneUnit → LaneUnit) : Kept C (t.modLane l f) :=
  C.setLane t l _ h

theorem Kept.raise (h : Kept C t) (c : Cause) : Kept C (raise c t) := C.raise t c h

theorem Kept.bump (h : Kept C t) (c : Counter) : Kept C (bump c t) := C.bump t c h

theorem Kept.setRecord (h : Kept C t) (k : Handle) (r : Record) : Kept C (t.setRecord k r) :=
  C.setRecord t k r h

theorem Kept.writeCell (h : Kept C t) (c : CellNo) (i : Nat) (b : Byte) :
    Kept C (t.writeCell c i b) := C.writeCell t c i b h

theorem Kept.setDq (h : Kept C t) (c : TrafficClass) (q : List Handle) : Kept C (t.setDq c q) :=
  C.setDq t c q h

theorem Kept.freeCells (h : Kept C t) (cs : List CellNo) : Kept C { t with freeList := cs } :=
  C.freeCells t cs h

theorem Kept.countLocal (h : Kept C t) (n : Nat) : Kept C { t with localCount := n } :=
  C.countLocal t n h

theorem Kept.queueReport (h : Kept C t) (rs : List Report) : Kept C { t with reports := rs } :=
  C.queue t rs h

theorem Kept.foldl {α : Type} {f : State → α → State}
    (hf : ∀ (t : State) (a : α), Kept C t → Kept C (f t a)) (xs : List α) :
    ∀ {t : State}, Kept C t → Kept C (xs.foldl f t) := by
  induction xs with
  | nil => intro t h; exact h
  | cons a as ih => intro t h; exact ih (hf t a h)

theorem Kept.ite {p : Prop} [Decidable p] {a b : State} (h : Kept C a) (k : Kept C b) :
    Kept C (if p then a else b) := by
  split
  · exact h
  · exact k

/-! ### The pool, reports and acknowledgement -/

theorem Kept.setIntake (h : Kept C t) (l : Lane) (n : Nat) : Kept C (t.setIntake l n) := by
  unfold State.setIntake
  split
  · exact h
  · exact h.modLane l _

theorem Kept.returnCells (h : Kept C t) (a : Option Arrival) (cs : List CellNo) :
    Kept C (t.returnCells a cs) := by
  unfold State.returnCells
  split
  · exact (h.freeCells _).setIntake _ _
  · exact (h.freeCells _).countLocal _
  · exact h.freeCells _

theorem Kept.freeRecord (h : Kept C t) (k : Handle) : Kept C (t.freeRecord k) :=
  (h.setRecord k _).returnCells _ _

theorem Kept.dropRef (h : Kept C t) (k : Handle) : Kept C (t.dropRef k) := by
  unfold State.dropRef
  dsimp only
  split
  · exact h.freeRecord k
  · exact h.setRecord k _

theorem Kept.requestCell (h : Kept C t) {a : Arrival} {c : TrafficClass} {n : CellNo}
    {t' : State} (e : t.requestCell a c = some (n, t')) : Kept C t' := by
  unfold State.requestCell at e
  split at e
  · split at e
    · cases e
    · dsimp only at e
      have low : ∀ {rest : List CellNo},
          Kept C (if rest.length ≤ t.cfg.palarm.toNat ∧ t.cfg.palarm.toNat < t.freeCount then
            Machine.raise .poolLow { t with freeList := rest } else { t with freeList := rest }) := by
        intro rest
        split
        · exact (h.freeCells _).raise _
        · exact h.freeCells _
      cases a with
      | fromLane l => cases e; exact low.setIntake l _
      | ofHost => cases e; exact low.countLocal _
  · cases e

theorem Kept.returnAssembly (h : Kept C t) (l : Lane) (a : Assembly) :
    Kept C (t.returnAssembly l a) := by
  unfold State.returnAssembly
  dsimp only
  refine Kept.returnCells ?_ _ _
  split
  · exact (h.modLane l _).setRecord _ _
  · exact h.modLane l _

theorem Kept.discardAssembly (h : Kept C t) (l : Lane) : Kept C (t.discardAssembly l) :=
  h.returnAssembly l _

theorem Kept.takeReport (h : Kept C t) (r : Report) : Kept C (t.takeReport r) := by
  unfold State.takeReport
  split
  · exact (h.queueReport _).raise _
  · exact (h.raise _).bump _

theorem Kept.endHolder (h : Kept C t) (l : Lane) (st : ReportStatus) (n : Nat) (k : Handle) :
    Kept C (t.endHolder l st n k) := by
  unfold State.endHolder
  dsimp only
  split
  · exact (h.takeReport _).dropRef k
  · exact h.dropRef k

theorem Kept.removeAcked (h : Kept C t) (l : Lane) : Kept C (t.removeAcked l) :=
  Kept.foldl (fun _ e k => k.endHolder l .done e.attempts e.handle) _ (h.setLane l _)

theorem Kept.endUnitAtTeardown (h : Kept C t) (l : Lane) :
    Kept C (t.endUnitAtTeardown l) := by
  unfold State.endUnitAtTeardown
  dsimp only
  split
  · exact ((h.setLane l _).modLane l _).removeAcked l
  · exact h.setLane l _
  · exact h.setLane l _

theorem Kept.loseReplay (h : Kept C t) (l : Lane) : Kept C (t.loseReplay l) :=
  Kept.foldl (fun _ e k => k.endHolder l .lost e.attempts e.handle) _ (h.modLane l _)

theorem Kept.flushForward (h : Kept C t) (l : Lane) (c : TrafficClass) :
    Kept C (t.flushForward l c) :=
  Kept.foldl (fun _ k h => (h.bump (.ofLane l .fwdFlushed)).dropRef k) _ (h.modLane l _)

theorem Kept.cancelSend (h : Kept C t) (l : Lane) (c : TrafficClass) :
    Kept C (t.cancelSend l c) :=
  Kept.foldl (fun _ k h => h.endHolder l .cancelled 0 k) _ (h.modLane l _)

theorem Kept.teardown (h : Kept C t) (l : Lane) (g : Target) : Kept C (t.teardown l g) := by
  unfold State.teardown
  dsimp only
  refine Kept.raise (Kept.modLane ?_ l _) _
  have flushed := ((((h.discardAssembly l).endUnitAtTeardown l).loseReplay l).flushForward l
    .express).flushForward l .standard
  cases g with
  | seek =>
    dsimp only
    split
    · exact flushed.raise _
    · exact flushed
  | off =>
    have cancelled := (flushed.cancelSend l .express).cancelSend l .standard
    dsimp only
    split
    · exact cancelled.raise _
    · exact cancelled

theorem Kept.failLane (h : Kept C t) (l : Lane) : Kept C (t.failLane l) :=
  ((h.bump _).raise _).teardown l _

theorem Kept.drainCheck (h : Kept C t) (l : Lane) : Kept C (t.drainCheck l) := by
  unfold State.drainCheck
  split
  · exact h.teardown l _
  · exact h

theorem Kept.ackEntries (h : Kept C t) (l : Lane) (q : Seq) : Kept C (t.ackEntries l q) :=
  ((h.modLane l _).removeAcked l).modLane l _

theorem Kept.acknowledge (h : Kept C t) (l : Lane) (q : Seq) :
    Kept C (t.acknowledge l q) := (h.ackEntries l q).drainCheck l

/-! ### Bring-up control -/

theorem Kept.recordFault (h : Kept C t) (l : Lane) (f : BringFault) :
    Kept C (t.recordFault l f) := ((h.modLane l _).bump _).raise _

theorem Kept.enterAgree (h : Kept C t) (l : Lane) (g : Greet) : Kept C (t.enterAgree l g) :=
  (h.modLane l _).raise _

theorem Kept.returnToSeek (h : Kept C t) (l : Lane) : Kept C (t.returnToSeek l) :=
  (h.modLane l _).raise _

theorem Kept.tryEnterUp (h : Kept C t) (l : Lane) : Kept C (t.tryEnterUp l) := by
  unfold State.tryEnterUp
  dsimp only
  split
  · exact (h.modLane l _).raise _
  · exact h

theorem Kept.greetInSeek (h : Kept C t) (l : Lane) (g : Greet) :
    Kept C (t.greetInSeek l g) := by
  unfold State.greetInSeek
  split
  · exact h.recordFault l _
  · split
    · exact h.recordFault l _
    · exact h.enterAgree l g

theorem Kept.greetInAgree (h : Kept C t) (l : Lane) (g : Greet) :
    Kept C (t.greetInAgree l g) := by
  unfold State.greetInAgree
  split
  · exact (h.recordFault l _).returnToSeek l
  · split
    · exact (h.recordFault l _).returnToSeek l
    · exact (h.modLane l _).tryEnterUp l

theorem Kept.takeGreet (h : Kept C t) (l : Lane) (g : Greet) : Kept C (t.takeGreet l g) := by
  unfold State.takeGreet
  split
  · exact h
  · exact h.greetInSeek l g
  · exact h.greetInAgree l g
  · split
    · exact h
    · exact (h.failLane l).greetInSeek l g
  · exact h.failLane l

theorem Kept.signalLoss (h : Kept C t) (l : Lane) : Kept C (t.signalLoss l) := by
  unfold State.signalLoss
  split
  · unfold State.actOnLoss
    split
    · exact h.modLane l _
    · exact h.modLane l _
    · exact (h.modLane l _).returnToSeek l
    · exact (h.modLane l _).failLane l
    · exact (h.modLane l _).failLane l
  · exact h

theorem Kept.endGrace (h : Kept C t) (l : Lane) : Kept C (t.endGrace l) := by
  unfold State.endGrace
  split
  · exact h.modLane l _
  · exact h

theorem Kept.expireGreetInterval (h : Kept C t) (l : Lane) :
    Kept C (t.expireGreetInterval l) := by
  unfold State.expireGreetInterval
  split
  · exact h.modLane l _
  · exact h

theorem Kept.expireBringUp (h : Kept C t) (l : Lane) : Kept C (t.expireBringUp l) := by
  unfold State.expireBringUp
  split
  · split
    · exact (h.recordFault l _).modLane l _
    · exact ((h.recordFault l _).returnToSeek l).modLane l _
    · exact h
    · exact h
    · exact h
  · exact h

theorem Kept.expireStop (h : Kept C t) (l : Lane) : Kept C (t.expireStop l) := by
  unfold State.expireStop
  split
  · exact h.teardown l _
  · exact h

/-! ### Link words and their timers -/

theorem Kept.takeAck (h : Kept C t) (l : Lane) (q : Seq) : Kept C (t.takeAck l q) := by
  unfold State.takeAck
  split
  · exact h.acknowledge l q
  · exact h.bump _

theorem Kept.matchReplay (h : Kept C t) (l : Lane) (q : Seq) :
    Kept C (t.matchReplay l q) := by
  unfold State.matchReplay
  dsimp only
  split
  · split
    · exact h.bump _
    · refine Kept.modLane ?_ l _
      split
      · exact h
      · exact h.ackEntries l _
  · split
    · split
      · exact h
      · exact h.acknowledge l _
    · exact h.bump _

theorem Kept.takeReplay (h : Kept C t) (l : Lane) (q : Seq) : Kept C (t.takeReplay l q) :=
  (h.bump _).matchReplay l q

theorem Kept.takeHold (h : Kept C t) (l : Lane) (sc : HoldScope) (n : BitVec 12) :
    Kept C (t.takeHold l sc n) := by
  unfold State.takeHold
  split
  · dsimp only
    split
    · exact ((h.bump _).modLane l _).raise _
    · exact (h.bump _).modLane l _
  · exact h.bump _

theorem Kept.takeWord (h : Kept C t) (l : Lane) (w : LinkWord) : Kept C (t.takeWord l w) := by
  unfold State.takeWord
  split
  · split
    · exact h.takeAck l _
    · exact h
  · split
    · exact h.takeReplay l _
    · exact h
  · split
    · exact h.takeHold l _ _
    · exact h
  · exact h.takeGreet l _

theorem Kept.expireAckDelay (h : Kept C t) (l : Lane) : Kept C (t.expireAckDelay l) := by
  unfold State.expireAckDelay
  split
  · exact h.modLane l _
  · exact h

theorem Kept.expireReplayTimer (h : Kept C t) (l : Lane) :
    Kept C (t.expireReplayTimer l) := h.modLane l _

theorem Kept.expireRenewTimer (h : Kept C t) (l : Lane) : Kept C (t.expireRenewTimer l) :=
  h.modLane l _

theorem Kept.expirePartner (h : Kept C t) (l : Lane) : Kept C (t.expirePartner l) := by
  unfold State.expirePartner
  split
  · exact (h.modLane l _).raise _
  · exact h

/-! ### Reception -/

theorem Kept.badParcel (h : Kept C t) (l : Lane) : Kept C (t.badParcel l) :=
  ((h.discardAssembly l).bump _).modLane l _

theorem Kept.gapParcel (h : Kept C t) (l : Lane) : Kept C (t.gapParcel l) :=
  ((h.discardAssembly l).bump _).modLane l _

theorem Kept.duplicateParcel (h : Kept C t) (l : Lane) : Kept C (t.duplicateParcel l) :=
  ((h.discardAssembly l).bump _).modLane l _

theorem Kept.overrunParcel (h : Kept C t) (l : Lane) : Kept C (t.overrunParcel l) :=
  ((h.discardAssembly l).bump _).modLane l _

theorem Kept.joinDelivery (h : Kept C t) (c : TrafficClass) (k : Handle) :
    Kept C (t.joinDelivery c k) := (h.setDq _ _).raise _

theorem Kept.joinForward (h : Kept C t) (l : Lane) (c : TrafficClass) (k : Handle) :
    Kept C (t.joinForward l c k) := h.modLane _ _

theorem Kept.handover (h : Kept C t) (l : Lane) (hd : Header) (d f : Bool) :
    Kept C (t.handover l hd d f) := by
  unfold State.handover
  dsimp only
  split
  · exact (h.modLane l _).returnCells _ _
  · rename_i k _
    have written := (h.modLane l (LaneUnit.setAsm Assembly.start)).setRecord k
      (Record.handover hd (.fromLane l) (t.lane l).asm.cells (d.toNat + f.toNat))
    have delivered := Kept.ite (p := d = true) (written.joinDelivery hd.cls k) written
    have forwarded := Kept.ite (p := f = true) (delivered.joinForward (otherLane l) hd.cls k) delivered
    exact .ite (forwarded.freeRecord k) forwarded

theorem Kept.classify (h : Kept C t) (l : Lane) (hd : Header) : Kept C (t.classify l hd) := by
  unfold State.classify
  dsimp only
  refine Kept.handover ?_ l hd _ _
  split
  · exact .ite (.bump (.ite (.bump (.ite (.bump h _) h) _) (.ite (.bump h _) h)) _)
      (.ite (.bump (.ite (.bump h _) h) _) (.ite (.bump h _) h))
  · exact .ite (.bump (.ite (.bump h _) h) _) (.ite (.bump h _) h)

theorem Kept.acceptedParcel (h : Kept C t) (l : Lane) (hd : Header) (n : Nat) :
    Kept C (t.acceptedParcel l hd n) := by
  have base := (h.modLane l (LaneUnit.accept t.cfg)).bump (.ofLane l .rxAccepted)
  unfold State.acceptedParcel
  dsimp only
  split
  · exact (base.bump _).discardAssembly l
  · split
    · exact (base.bump _).discardAssembly l
    · exact base.classify l hd

theorem Kept.closeAssembly (h : Kept C t) (l : Lane) : Kept C (t.closeAssembly l) := by
  unfold State.closeAssembly
  dsimp only
  split
  · split
    · exact h.acceptedParcel l _ _
    · exact h.overrunParcel l
    · exact h.duplicateParcel l
    · exact h.gapParcel l
  · exact h.badParcel l

theorem Kept.abandonAssembly (h : Kept C t) (l : Lane) : Kept C (t.abandonAssembly l) :=
  (h.discardAssembly l).bump _

theorem Kept.openAssembly (h : Kept C t) (l : Lane) : Kept C (t.openAssembly l) := by
  unfold State.openAssembly
  split
  · exact (h.setRecord _ _).modLane l _
  · exact h.modLane l _

theorem Kept.storeByte (h : Kept C t) (l : Lane) (b : Byte) : Kept C (t.storeByte l b) := by
  unfold State.storeByte
  dsimp only
  split
  · exact h
  · split
    · split
      · rename_i e
        exact ((h.requestCell e).writeCell _ _ _).modLane l _
      · exact h.returnAssembly l _
    · refine Kept.modLane ?_ l _
      split
      · exact h.writeCell _ _ _
      · exact h

theorem Kept.assembleByte (h : Kept C t) (l : Lane) (b : Byte) :
    Kept C (t.assembleByte l b) := by
  unfold State.assembleByte
  dsimp only
  split
  · exact h.modLane l _
  · split
    · exact (h.modLane l _).storeByte l _
    · exact h.modLane l _

theorem Kept.setFraming (h : Kept C t) (l : Lane) (f : Framing) :
    Kept C (t.setFraming l f) := h.modLane l _

theorem Kept.breakUnit (h : Kept C t) (l : Lane) : Kept C (t.breakUnit l) := by
  unfold State.breakUnit
  split
  · exact h
  · dsimp only
    split
    · exact (h.setFraming l _).badParcel l
    · exact h.setFraming l _
  · exact (h.setFraming l _).bump _

theorem Kept.takeSop (h : Kept C t) (l : Lane) : Kept C (t.takeSop l) := by
  unfold State.takeSop
  dsimp only
  split
  · exact ((h.breakUnit l).setFraming l _).openAssembly l
  · exact (h.breakUnit l).setFraming l _

theorem Kept.takeSow (h : Kept C t) (l : Lane) : Kept C (t.takeSow l) :=
  (h.breakUnit l).setFraming l _

theorem Kept.takeIdl (h : Kept C t) (l : Lane) : Kept C (t.takeIdl l) := h.breakUnit l

theorem Kept.completeWord (h : Kept C t) (l : Lane) (bs : List Byte) :
    Kept C (t.completeWord l bs) := by
  unfold State.completeWord
  split
  · exact h.takeWord l _
  · exact h.bump _

theorem Kept.takeData (h : Kept C t) (l : Lane) (b : Byte) : Kept C (t.takeData l b) := by
  unfold State.takeData
  split
  · exact h
  · split
    · exact h.assembleByte l b
    · exact h
  · split
    · exact h.setFraming l _
    · exact (h.setFraming l _).completeWord l _

theorem Kept.takeEop (h : Kept C t) (l : Lane) : Kept C (t.takeEop l) := by
  unfold State.takeEop
  split
  · exact h
  · dsimp only
    split
    · exact (h.setFraming l _).closeAssembly l
    · exact h.setFraming l _
  · exact h.breakUnit l

theorem Kept.takeAbt (h : Kept C t) (l : Lane) : Kept C (t.takeAbt l) := by
  unfold State.takeAbt
  split
  · exact h
  · dsimp only
    split
    · exact (h.setFraming l _).abandonAssembly l
    · exact h.setFraming l _
  · exact h.breakUnit l

theorem Kept.onSymbol (h : Kept C t) (l : Lane) {f : State → State}
    (hf : ∀ {u : State}, Kept C u → Kept C (f u)) : Kept C (t.onSymbol l f) := by
  unfold State.onSymbol
  split
  · exact h
  · exact hf (h.modLane l _)

theorem Kept.closeForWord (h : Kept C t) (l : Lane) : Kept C (t.closeForWord l) := by
  unfold State.closeForWord
  split
  · exact h
  · exact h.breakUnit l
  · exact h.setFraming l _

theorem Kept.onWord (h : Kept C t) (l : Lane) (w : LinkWord) : Kept C (t.onWord l w) :=
  h.onSymbol l fun k => (k.closeForWord l).takeWord l w

/-! ### The transmitter -/

theorem Kept.startWord (h : Kept C t) (l : Lane) (w : LinkWord) :
    Kept C (t.startWord l w) := by
  unfold State.startWord
  refine Kept.modLane ?_ l _
  split
  · exact h.modLane l _
  · exact (h.bump _).modLane l _
  · exact (h.bump _).modLane l _
  · exact h.modLane l _

theorem Kept.resend (h : Kept C t) (l : Lane) (q : Seq) : Kept C (t.resend l q) := by
  unfold State.resend
  split
  · exact h
  · split
    · exact h.failLane l
    · exact (h.bump _).modLane l _

theorem Kept.firstTransmission (h : Kept C t) (l : Lane) (k : TrafficClass) (n : Turn) :
    Kept C (t.firstTransmission l k n) := by
  unfold State.firstTransmission
  split
  · exact h
  · exact (h.bump _).modLane l _

theorem Kept.opportunity (h : Kept C t) (l : Lane) : Kept C (t.opportunity l) := by
  unfold State.opportunity
  split
  · split
    · exact h.startWord l _
    · exact h.resend l _
    · exact h.firstTransmission l _ _
    · exact h
  · exact h

theorem Kept.endParcel (h : Kept C t) (l : Lane) (q : Seq) : Kept C (t.endParcel l q) := by
  unfold State.endParcel
  dsimp only
  split
  · exact (((h.modLane l _).removeAcked l).modLane l _).drainCheck l
  · exact h.modLane l _

theorem Kept.endWord (h : Kept C t) (l : Lane) (w : LinkWord) : Kept C (t.endWord l w) := by
  unfold State.endWord
  split
  · split
    · exact (h.modLane l _).tryEnterUp l
    · exact h
  · exact h
  · exact h
  · exact h

theorem Kept.endUnit (h : Kept C t) (l : Lane) : Kept C (t.endUnit l) := by
  unfold State.endUnit
  dsimp only
  split
  · exact h
  · exact ((h.modLane l _).endParcel l _).opportunity l
  · exact ((h.modLane l _).endWord l _).opportunity l

/-! ### Two properties that survive -/

theorem survives_sameHost (s : State) : Survives (SameHost s) where
  setLane t l u h := h.trans (by constructor <;> first | simp | (constructor <;> simp))
  raise t c h := h.trans (by constructor <;> first | rfl | (constructor <;> rfl))
  bump t c h := h.trans (by constructor <;> first | simp | (constructor <;> simp))
  setRecord t k r h := h.trans (by constructor <;> first | rfl | (constructor <;> rfl))
  writeCell t c i b h := h.trans (by constructor <;> first | rfl | (constructor <;> rfl))
  setDq t c q h := h.trans (by constructor <;> first | simp | (constructor <;> simp))
  freeCells t cs h := h.trans (by constructor <;> first | rfl | (constructor <;> rfl))
  countLocal t n h := h.trans (by constructor <;> first | rfl | (constructor <;> rfl))
  queue t rs h := h.trans (by constructor <;> first | rfl | (constructor <;> rfl))

theorem survives_memoryWf : Survives fun t => t.mem.wf = true where
  setLane t l u h := by simpa using h
  raise t c h := h
  bump t c h := by simpa using h
  setRecord t k r h := h
  writeCell t c i b h := Memory.wf_write _ _ h
  setDq t c q h := by simpa using h
  freeCells t cs h := h
  countLocal t n h := h
  queue t rs h := h

end Sys2Proof.Machine
end

