-- ==== Sys2Proof/Laws/Ops.lean ====
section
/-! SUPPORT. What the shared operations do, one lemma or a few for each: refusals, the pool, reports,
the end of holders, and the teardown of a lane. -/

namespace Sys2Proof.Machine

/-! ### Answers and flags -/

/-- A write reaches the window while RESET# is high (R171). -/
@[simp] theorem onWrite_of_high {s : State} (h : s.resetLow = false) (f : State → State) :
    s.onWrite f = f s := by
  unfold State.onWrite
  rw [h]
  rfl

/-- A read with a side effect has it while RESET# is high (R171). -/
@[simp] theorem onRead_of_high {s : State} (h : s.resetLow = false) (f : State → State) :
    s.onRead f = f s := by
  unfold State.onRead
  rw [h]
  rfl

/-- A register reads what it shows while RESET# is high (R171). -/
@[simp] theorem readRegister_of_high {s : State} (h : s.resetLow = false) (r : RegName) :
    s.readRegister r = s.shows r := by
  unfold State.readRegister
  rw [h]
  rfl

theorem refuse_eq_refusedAs (r : CmdResult) (s : State) : refuse r s = s.refusedAs r := rfl

theorem Cause.bit_inj {c d : Cause} (h : c.bit = d.bit) : c = d := by
  rcases c with _ | _ | _ | _ | l | l | l | _ | _ | _ <;>
    rcases d with _ | _ | _ | _ | k | k | k | _ | _ | _ <;>
    (try cases l) <;> (try cases k) <;> first | rfl | (exact absurd h (by decide))

theorem Cause.mask_getLsbD (c d : Cause) : c.mask.getLsbD d.bit = (d == c) := by
  rcases c with _ | _ | _ | _ | l | l | l | _ | _ | _ <;>
    rcases d with _ | _ | _ | _ | k | k | k | _ | _ | _ <;>
    (try cases l) <;> (try cases k) <;> rfl

theorem isPending_raise (c d : Cause) (s : State) :
    (raise c s).isPending d = (s.isPending d || d == c) := by
  simp [State.isPending, raise, Cause.mask_getLsbD]

theorem isPending_bump (c : Counter) (d : Cause) (s : State) (h : d ≠ .countHalf) :
    (bump c s).isPending d = s.isPending d := by
  unfold bump
  dsimp only
  split
  · rfl
  · split
    · rw [isPending_raise]
      simp [h, State.isPending]
    · rfl

theorem Counter.index_ofLane_inj {l k : Lane} {c d : LaneCounter}
    (h : (Counter.ofLane l c).index = (Counter.ofLane k d).index) : l = k ∧ c = d := by
  have hv := congrArg Fin.val h
  cases l <;> cases k <;> cases c <;> cases d <;>
    first | exact ⟨rfl, rfl⟩ | (exact absurd hv (by decide))

theorem Counter.index_ofLane_ne_reportLost (l : Lane) (c : LaneCounter) :
    (Counter.ofLane l c).index ≠ Counter.reportLost.index := by
  intro h
  have hv := congrArg Fin.val h
  cases l <;> cases c <;> exact absurd hv (by decide)

/-- The counters of the lanes stand before the chip-wide ones (R168). -/
theorem Counter.index_ofLane_lt (l : Lane) (c : LaneCounter) : (Counter.ofLane l c).index.val < 44 := by
  cases l <;> cases c <;> decide

/-- Every counter has a place of its own (R168). -/
theorem Counter.index_inj {c d : Counter} (h : c.index = d.index) : c = d := by
  have hv := congrArg Fin.val h
  rcases c with ⟨l, c⟩ | ⟨_ | _⟩ | _ | _ <;> rcases d with ⟨m, d⟩ | ⟨_ | _⟩ | _ | _
  case ofLane.ofLane =>
    obtain ⟨rfl, rfl⟩ := Counter.index_ofLane_inj h
    rfl
  all_goals first
    | rfl
    | exact absurd hv (by decide)
    | exact absurd hv (Nat.ne_of_lt (Nat.lt_of_lt_of_le (Counter.index_ofLane_lt _ _) (by decide)))
    | exact absurd hv.symm (Nat.ne_of_lt (Nat.lt_of_lt_of_le (Counter.index_ofLane_lt _ _) (by decide)))

/-- An increment of one counter leaves every other as it is (R167). -/
theorem bump_counter_of_ne {c d : Counter} (s : State) (h : d ≠ c) :
    (bump c s).counter d = s.counter d :=
  bump_counter_ne c d s fun e => h (Counter.index_inj e).symm

/-! ### The pool -/

theorem lowestFree_eq_some {s : State} {h : Handle} (hf : (s.record h).isFree = true)
    (hk : ∀ k < h, (s.record k).isFree = false) : s.lowestFree = some h := by
  simp only [State.lowestFree, List.find?_eq_some_iff_getElem]
  refine ⟨hf, h.val, by simp, by simp, fun j hj => ?_⟩
  simp [hk ⟨j, by omega⟩ (by simpa [Fin.lt_def] using hj)]

theorem lowestFree_eq_none {s : State} (hk : ∀ k, (s.record k).isFree = false) :
    s.lowestFree = none := by
  simp [State.lowestFree, List.find?_eq_none, hk]

theorem SameButIntake.refl (u : LaneUnit) : SameButIntake u u := rfl

theorem SameButIntake.trans {u v w : LaneUnit} (h : SameButIntake u v) (k : SameButIntake v w) :
    SameButIntake u w := by
  unfold SameButIntake at *
  rw [h] at k
  exact k

/-- An intake change reaches nothing of the lane but what R86 and R105 name. -/
theorem sameButIntake_intakeTo (c : Settings) (m : LaneSettings) (n : Nat) (u : LaneUnit) :
    SameButIntake u (LaneUnit.intakeTo c m n u) := by
  unfold SameButIntake LaneUnit.intakeTo LaneUnit.releaseOwed LaneUnit.holdUnit
    LaneUnit.evaluateHold LaneUnit.requestReplay LaneUnit.requestHold
  dsimp only
  repeat' split
  all_goals rfl

theorem sameButIntake_setIntake (s : State) (l k : Lane) (n : Nat) :
    SameButIntake (s.lane k) ((s.setIntake l n).lane k) := by
  unfold State.setIntake
  split
  · exact .refl _
  · by_cases h : k = l
    · subst h
      rw [State.modLane_lane]
      exact sameButIntake_intakeTo _ _ _ _
    · rw [State.modLane_lane_ne _ _ h]
      exact .refl _

theorem returnCells_freeList (s : State) (a : Option Arrival) (cs : List CellNo) :
    (s.returnCells a cs).freeList = s.freeList ++ cs := by
  unfold State.returnCells State.setIntake State.modLane
  rcases a with _ | l | _
  · rfl
  · dsimp only
    split
    · rfl
    · rw [State.setLane_freeList]
  · rfl

/-- Returned cells change no record, no memory, no queue of the host, no flag and no counter. -/
structure SameBooks (s t : State) : Prop where
  records  : t.records = s.records
  mem      : t.mem = s.mem
  dqX      : t.dqX = s.dqX
  dqS      : t.dqS = s.dqS
  reports  : t.reports = s.reports
  evPend   : t.evPend = s.evPend
  counters : t.counters = s.counters

theorem sameBooks_returnCells (s : State) (a : Option Arrival) (cs : List CellNo) :
    SameBooks s (s.returnCells a cs) := by
  unfold State.returnCells State.setIntake State.modLane
  rcases a with _ | l | _
  · constructor <;> rfl
  · dsimp only
    split
    · constructor <;> rfl
    · constructor <;> simp
  · constructor <;> rfl

theorem sameButIntake_returnCells (s : State) (a : Option Arrival) (cs : List CellNo) (k : Lane) :
    SameButIntake (s.lane k) ((s.returnCells a cs).lane k) := by
  unfold State.returnCells
  rcases a with _ | l | _
  · exact .refl _
  · exact sameButIntake_setIntake { s with freeList := s.freeList ++ cs } l k _
  · exact .refl _

/-! ### Reference drops (R26) -/

theorem dropRef_record (s : State) (h k : Handle) :
    (s.dropRef h).record k = if k = h then (s.record h).dropped else s.record k := by
  unfold State.dropRef State.freeRecord Record.dropped
  dsimp only
  split
  · have e := (sameBooks_returnCells (s.setRecord h Record.cleared) (s.record h).arrival
      (s.record h).chain).records
    unfold State.record at *
    rw [e]
    by_cases hk : k = h
    · subst hk
      simp [State.setRecord]
    · rw [if_neg hk]
      exact State.setRecord_record_ne s _ (Ne.symm hk)
  · by_cases hk : k = h
    · subst hk
      rw [State.setRecord_record, if_pos rfl]
    · rw [State.setRecord_record_ne s _ (Ne.symm hk), if_neg hk]

theorem dropRef_freeList (s : State) (h : Handle) :
    (s.dropRef h).freeList =
      s.freeList ++ if (s.record h).refs ≤ 1 then (s.record h).chain else [] := by
  unfold State.dropRef State.freeRecord
  dsimp only
  split
  · rw [returnCells_freeList, State.setRecord_freeList]
  · simp

theorem dropRef_reports (s : State) (h : Handle) : (s.dropRef h).reports = s.reports := by
  unfold State.dropRef State.freeRecord
  dsimp only
  split
  · rw [(sameBooks_returnCells _ _ _).reports, State.setRecord_reports]
  · simp

theorem dropRef_evPend (s : State) (h : Handle) : (s.dropRef h).evPend = s.evPend := by
  unfold State.dropRef State.freeRecord
  dsimp only
  split
  · rw [(sameBooks_returnCells _ _ _).evPend, State.setRecord_evPend]
  · simp

theorem dropRef_counters (s : State) (h : Handle) : (s.dropRef h).counters = s.counters := by
  unfold State.dropRef State.freeRecord
  dsimp only
  split
  · rw [(sameBooks_returnCells _ _ _).counters, State.setRecord_counters]
  · simp

/-! ### What the end of holders leaves alone -/

/-- What the reports and drops of a lane's entries leave alone: the host's side, the lanes but for their
intake, the delivery queues, the bytes in the cells, the counters but those named, and the flags but
those of reports and of counters at the half. -/
structure Drops (touched : List Counter) (s t : State) : Prop where
  host     : SameHost s t
  lanes    : ∀ l, SameButIntake (s.lane l) (t.lane l)
  delivery : t.dqX = s.dqX ∧ t.dqS = s.dqS
  mem      : t.mem = s.mem
  counters : ∀ c, c ∉ touched → t.counter c = s.counter c
  flags    : ∀ x, x ∉ [.rpt, .rptOvf, .countHalf] → t.isPending x = s.isPending x

theorem Drops.refl {cs : List Counter} (s : State) : Drops cs s s := by
  constructor
  · exact .refl s
  · exact fun l => .refl _
  · exact ⟨rfl, rfl⟩
  · rfl
  · exact fun c _ => rfl
  · exact fun x _ => rfl

theorem Drops.trans {cs : List Counter} {s t u : State} (h : Drops cs s t) (k : Drops cs t u) :
    Drops cs s u := by
  constructor
  · exact h.host.trans k.host
  · exact fun l => (h.lanes l).trans (k.lanes l)
  · exact ⟨k.delivery.1.trans h.delivery.1, k.delivery.2.trans h.delivery.2⟩
  · exact k.mem.trans h.mem
  · exact fun c hc => (k.counters c hc).trans (h.counters c hc)
  · exact fun x hx => (k.flags x hx).trans (h.flags x hx)

theorem Drops.mono {cs ds : List Counter} {s t : State} (h : Drops cs s t) (hd : ∀ c ∈ cs, c ∈ ds) :
    Drops ds s t :=
  { h with counters := fun c hc => h.counters c fun k => hc (hd c k) }

/-- Operations on records and cells alone. -/
theorem Drops.ofBooks {cs : List Counter} {s t : State} (host : SameHost s t)
    (lanes : ∀ l, SameButIntake (s.lane l) (t.lane l)) (dqX : t.dqX = s.dqX) (dqS : t.dqS = s.dqS)
    (mem : t.mem = s.mem) (evPend : t.evPend = s.evPend) (counters : t.counters = s.counters) :
    Drops cs s t := by
  constructor
  · exact host
  · exact lanes
  · exact ⟨dqX, dqS⟩
  · exact mem
  · intro c _
    unfold State.counter
    rw [counters]
  · intro x _
    unfold State.isPending
    rw [evPend]

theorem drops_setRecord {cs : List Counter} (s : State) (h : Handle) (r : Record) :
    Drops cs s (s.setRecord h r) :=
  .ofBooks (Kept.setRecord (C := survives_sameHost s) (.refl s) h r) (fun _ => .refl _) rfl rfl rfl
    rfl rfl

theorem drops_returnCells {ds : List Counter} (s : State) (a : Option Arrival) (cs : List CellNo) :
    Drops ds s (s.returnCells a cs) :=
  have b := sameBooks_returnCells s a cs
  .ofBooks (Kept.returnCells (C := survives_sameHost s) (.refl s) a cs)
    (sameButIntake_returnCells s a cs) b.dqX b.dqS b.mem b.evPend b.counters

theorem drops_freeRecord {cs : List Counter} (s : State) (h : Handle) :
    Drops cs s (s.freeRecord h) :=
  (drops_setRecord s h _).trans (drops_returnCells _ _ _)

theorem drops_dropRef {cs : List Counter} (s : State) (h : Handle) : Drops cs s (s.dropRef h) := by
  unfold State.dropRef
  dsimp only
  split
  · exact drops_freeRecord s h
  · exact drops_setRecord s h _

theorem drops_raise_rpt {cs : List Counter} (s : State) (x : Cause) (hx : x = .rpt ∨ x = .rptOvf) :
    Drops cs s (raise x s) := by
  constructor
  · exact Kept.raise (C := survives_sameHost s) (.refl s) x
  · exact fun l => by rw [raise_lane]; exact .refl _
  · exact ⟨rfl, rfl⟩
  · rfl
  · exact fun _ _ => rfl
  · intro y hy
    have : (y == x) = false := by
      rw [beq_eq_false_iff_ne]
      rintro rfl
      rcases hx with rfl | rfl <;> exact hy (by decide)
    rw [isPending_raise, this, Bool.or_false]

theorem drops_bump (s : State) (c : Counter) : Drops [c] s (bump c s) := by
  constructor
  · exact Kept.bump (C := survives_sameHost s) (.refl s) c
  · exact fun l => by rw [bump_lane]; exact .refl _
  · exact ⟨bump_dqX c s, bump_dqS c s⟩
  · exact bump_mem c s
  · exact fun d hd => bump_counter_of_ne s fun e => hd (e ▸ List.mem_singleton_self _)
  · intro x hx
    refine isPending_bump c x s ?_
    rintro rfl
    exact hx (by decide)

theorem drops_takeReport (s : State) (r : Report) : Drops [.reportLost] s (s.takeReport r) := by
  unfold State.takeReport
  split
  · refine Drops.trans (t := { s with reports := s.reports ++ [r] }) ?_
      (drops_raise_rpt _ _ (.inl rfl))
    exact .ofBooks (Kept.queueReport (C := survives_sameHost s) (.refl s) _) (fun _ => .refl _) rfl
      rfl rfl rfl rfl
  · exact (drops_raise_rpt s _ (.inr rfl)).trans (drops_bump _ _)

theorem drops_endHolder (s : State) (l : Lane) (st : ReportStatus) (n : Nat) (h : Handle) :
    Drops [.reportLost] s (s.endHolder l st n h) := by
  unfold State.endHolder
  dsimp only
  split
  · exact (drops_takeReport s _).trans (drops_dropRef _ h)
  · exact drops_dropRef s h

theorem drops_foldl {cs : List Counter} {α : Type} {f : State → α → State}
    (hf : ∀ s a, Drops cs s (f s a)) (xs : List α) : ∀ s, Drops cs s (xs.foldl f s) := by
  induction xs with
  | nil => exact Drops.refl
  | cons a as ih => exact fun s => (hf s a).trans (ih _)

/-- Ending holders, in a phase of a teardown. -/
theorem drops_ends {α : Type} (l k : Lane) (st : ReportStatus) (n : α → Nat) (hd : α → Handle)
    (xs : List α) (s : State) : Drops [.ofLane k .fwdFlushed, .reportLost] s
      (xs.foldl (fun s x => s.endHolder l st (n x) (hd x)) s) :=
  (drops_foldl (fun s _ => drops_endHolder s l _ _ _) xs s).mono fun _ h => List.mem_cons_of_mem _ h

/-! ### The reports, cells and records of ended holders -/

/-- What an increment leaves in its counter depends on what it finds there. -/
theorem bump_counter_congr (c : Counter) {s t : State} (h : s.counter c = t.counter c) :
    (bump c s).counter c = (bump c t).counter c := by
  have e : ∀ u : State, (bump c u).counter c = if u.counter c = 0xFFFF then u.counter c
      else u.counter c + 1 := by
    intro u
    unfold bump
    split
    · rw [if_pos (by assumption)]
    · rw [if_neg (by assumption)]
      split <;> simp [State.counter, raise]
  rw [e, e, h]

/-- A map repeated once more is the map first. -/
theorem repeat_succ {α : Type} (f : α → α) (a : α) : ∀ n : Nat,
    Nat.repeat f (n + 1) a = Nat.repeat f n (f a)
  | 0 => rfl
  | n + 1 => by rw [Nat.repeat, repeat_succ f a n]; rfl

/-- What increments leave in their counter depends on what they find there. -/
theorem repeat_bump_congr (c : Counter) {s t : State} (h : s.counter c = t.counter c) : ∀ n : Nat,
    (Nat.repeat (bump c) n s).counter c = (Nat.repeat (bump c) n t).counter c
  | 0 => h
  | n + 1 => bump_counter_congr c (repeat_bump_congr c h n)

/-- Increments one after another add up. -/
theorem repeat_add {α : Type} (f : α → α) (a : α) (n : Nat) : ∀ m : Nat,
    Nat.repeat f (n + m) a = Nat.repeat f m (Nat.repeat f n a)
  | 0 => rfl
  | m + 1 => congrArg f (repeat_add f a n m)

theorem takeReport_record (s : State) (r : Report) (k : Handle) :
    (s.takeReport r).record k = s.record k := by
  unfold State.takeReport
  split <;> simp [State.record]

theorem takeReport_freeList (s : State) (r : Report) : (s.takeReport r).freeList = s.freeList := by
  unfold State.takeReport
  split <;> simp

theorem take_take_append {α : Type} (n : Nat) (xs ys : List α) :
    (xs.take n ++ ys).take n = (xs ++ ys).take n := by
  rw [List.take_append, List.take_append, List.take_take, Nat.min_self, List.length_take]
  congr 2
  omega

/-- No report taken. -/
theorem ReportsTaken.nil {s t : State} (hs : s.reports.length ≤ 32) (hr : t.reports = s.reports)
    (he : t.evPend = s.evPend) (hc : t.counters = s.counters) : ReportsTaken [] s t := by
  constructor
  · rw [List.append_nil, List.take_of_length_le hs, hr]
  · simp [State.isPending, he]
  · have : ¬32 < s.reports.length := by omega
    simp [State.isPending, he, this]
  · have : s.reports.length + ([] : List Report).length - 32 = 0 := by simp; omega
    rw [this]
    simp [State.counter, hc, Nat.repeat]

/-- Some reports taken, and then more. -/
theorem ReportsTaken.append {rs qs : List Report} {s t u : State} (hs : s.reports.length ≤ 32)
    (h : ReportsTaken rs s t) (k : ReportsTaken qs t u) : ReportsTaken (rs ++ qs) s u := by
  have hl : t.reports.length = min 32 (s.reports.length + rs.length) := by
    rw [h.queue, List.length_take, List.length_append]
  constructor
  · rw [k.queue, h.queue, take_take_append, List.append_assoc]
  · rw [k.rpt, h.rpt, Bool.or_assoc, ← Bool.decide_or]
    congr 2
    rcases rs with _ | ⟨r, rs⟩
    · simp only [List.length_nil] at hl
      simp only [ne_eq, not_true_eq_false, false_and, false_or, List.nil_append, hl, eq_iff_iff]
      exact and_congr_right fun _ => by omega
    · simp only [List.length_cons] at hl
      simp only [ne_eq, reduceCtorEq, not_false_eq_true, true_and, List.cons_append, hl, eq_iff_iff]
      omega
  · rw [k.ovf, h.ovf, Bool.or_assoc, ← Bool.decide_or, List.length_append, hl]
    congr 2
    simp only [eq_iff_iff]
    omega
  · rw [k.lost, repeat_bump_congr _ h.lost, ← repeat_add, hl, List.length_append]
    congr 2
    omega

/-- The reports taken, up to a change of nothing that a report shows in. -/
theorem ReportsTaken.congr {rs : List Report} {s s' t t' : State} (h : ReportsTaken rs s t)
    (hs : s'.reports = s.reports ∧ s'.evPend = s.evPend ∧ s'.counters = s.counters)
    (ht : t'.reports = t.reports ∧ t'.evPend = t.evPend ∧ t'.counters = t.counters) :
    ReportsTaken rs s' t' := by
  have e : s.counter .reportLost = s'.counter .reportLost := by
    unfold State.counter
    rw [hs.2.2]
  constructor
  · rw [ht.1, h.queue, hs.1]
  · unfold State.isPending
    rw [ht.2.1, hs.2.1, hs.1]
    exact h.rpt
  · unfold State.isPending
    rw [ht.2.1, hs.2.1, hs.1]
    exact h.ovf
  · rw [hs.1, ← repeat_bump_congr _ e, ← h.lost]
    unfold State.counter
    rw [ht.2.2]

/-- One report taken (R156). -/
theorem reportsTaken_takeReport {s : State} {r : Report} (hs : s.reports.length ≤ 32) :
    ReportsTaken [r] s (s.takeReport r) := by
  unfold State.takeReport
  by_cases h : s.reports.length < 32
  · rw [if_pos h]
    constructor
    · rw [raise_reports, List.take_of_length_le]
      simpa using by omega
    · rw [isPending_raise]
      simp [h, State.isPending]
    · rw [isPending_raise]
      have : ¬32 < s.reports.length + 1 := by omega
      simp [this, State.isPending]
    · have : s.reports.length + [r].length - 32 = 0 := by simp; omega
      rw [this]
      rfl
  · rw [if_neg h]
    constructor
    · rw [bump_reports, raise_reports, List.take_append_of_le_length (by omega),
        List.take_of_length_le hs]
    · rw [isPending_bump _ _ _ (by decide), isPending_raise]
      simp [h]
    · rw [isPending_bump _ _ _ (by decide), isPending_raise]
      have : 32 < s.reports.length + 1 := by omega
      simp [this]
    · have : s.reports.length + [r].length - 32 = 1 := by simp; omega
      rw [this]
      exact bump_counter_congr _ rfl

/-- The reports that ending some holders calls for: one for each local record, in order (R155). -/
def State.holderReports {α : Type} (s : State) (l : Lane) (st : ReportStatus) (n : α → Nat)
    (hd : α → Handle) (xs : List α) : List Report :=
  (xs.filter fun x => (s.record (hd x)).arrival = some .ofHost).map fun x =>
    { handle := hd x, lane := l, status := st, resends := n x }

theorem endHolder_record (s : State) (l : Lane) (st : ReportStatus) (n : Nat) (h k : Handle) :
    (s.endHolder l st n h).record k = if k = h then (s.record h).dropped else s.record k := by
  unfold State.endHolder
  dsimp only
  split <;> simp [dropRef_record, takeReport_record]

theorem endHolder_freeList (s : State) (l : Lane) (st : ReportStatus) (n : Nat) (h : Handle) :
    (s.endHolder l st n h).freeList =
      s.freeList ++ if (s.record h).refs ≤ 1 then (s.record h).chain else [] := by
  unfold State.endHolder
  dsimp only
  split <;> simp [dropRef_freeList, takeReport_record, takeReport_freeList]

/-- The end of one holder reports a local record, and no other (R155, R156). -/
theorem reportsTaken_endHolder {s : State} (l : Lane) (st : ReportStatus) (n : Nat) (h : Handle)
    (hs : s.reports.length ≤ 32) :
    ReportsTaken (if (s.record h).arrival = some .ofHost then
        [({ handle := h, lane := l, status := st, resends := n } : Report)] else [])
      s (s.endHolder l st n h) := by
  unfold State.endHolder
  dsimp only
  split
  · exact (reportsTaken_takeReport hs).congr ⟨rfl, rfl, rfl⟩
      ⟨dropRef_reports _ _, dropRef_evPend _ _, dropRef_counters _ _⟩
  · exact .nil hs (dropRef_reports _ _) (dropRef_evPend _ _) (dropRef_counters _ _)

/-- Ending the holders of different records, one after another. -/
theorem foldl_endHolder {α : Type} (l : Lane) (st : ReportStatus) (n : α → Nat) (hd : α → Handle)
    (xs : List α) : ∀ s : State, s.reports.length ≤ 32 → (xs.map hd).Nodup →
    let t := xs.foldl (fun s x => s.endHolder l st (n x) (hd x)) s
    ReportsTaken (s.holderReports l st n hd xs) s t
      ∧ t.freeList = s.freeList ++ s.cellsFreedBy (xs.map hd)
      ∧ ∀ h, t.record h = if h ∈ xs.map hd then (s.record h).dropped else s.record h := by
  induction xs with
  | nil =>
    intro s hs _
    refine ⟨?_, ?_, ?_⟩
    · exact .nil hs rfl rfl rfl
    · simp [State.cellsFreedBy]
    · simp
  | cons a as ih =>
    intro s hs hn
    rw [List.map_cons] at hn
    obtain ⟨ha, hn⟩ := List.nodup_cons.1 hn
    have hrec : ∀ k ∈ as.map hd, (s.endHolder l st (n a) (hd a)).record k = s.record k := by
      intro k hk
      rw [endHolder_record, if_neg]
      rintro rfl
      exact ha hk
    have one := reportsTaken_endHolder l st (n a) (hd a) hs
    have hs' : (s.endHolder l st (n a) (hd a)).reports.length ≤ 32 := by
      rw [one.queue, List.length_take]
      omega
    obtain ⟨h1, h2, h3⟩ := ih (s.endHolder l st (n a) (hd a)) hs' hn
    have hreps : (s.endHolder l st (n a) (hd a)).holderReports l st n hd as =
        s.holderReports l st n hd as := by
      unfold State.holderReports
      congr 1
      apply List.filter_congr
      intro x hx
      rw [hrec _ (List.mem_map_of_mem hx)]
    have hcells : (s.endHolder l st (n a) (hd a)).cellsFreedBy (as.map hd) =
        s.cellsFreedBy (as.map hd) := by
      unfold State.cellsFreedBy
      rw [List.flatMap_def, List.flatMap_def]
      congr 1
      apply List.map_congr_left
      intro k hk
      rw [hrec k hk]
    refine ⟨?_, ?_, ?_⟩
    · have : s.holderReports l st n hd (a :: as) =
          (if (s.record (hd a)).arrival = some .ofHost then
            [({ handle := hd a, lane := l, status := st, resends := n a } : Report)] else [])
          ++ s.holderReports l st n hd as := by
        by_cases e : (s.record (hd a)).arrival = some .ofHost <;>
          simp [State.holderReports, e]
      rw [this]
      exact one.append hs (hreps ▸ h1)
    · rw [List.foldl_cons, h2, hcells, endHolder_freeList]
      simp [State.cellsFreedBy]
    · intro k
      rw [List.foldl_cons, h3 k]
      by_cases hk : k ∈ as.map hd
      · rw [if_pos hk, hrec k hk, List.map_cons, if_pos (List.mem_cons_of_mem _ hk)]
      · rw [if_neg hk, endHolder_record]
        by_cases e : k = hd a
        · subst e
          simp
        · rw [if_neg e, if_neg]
          simp only [List.map_cons, List.mem_cons, not_or]
          exact ⟨e, hk⟩

/-- Flushing the forward entries of different records, one after another. -/
theorem foldl_flush (l : Lane) (xs : List Handle) : ∀ s : State, xs.Nodup →
    let t := xs.foldl (fun s h => (bump (.ofLane l .fwdFlushed) s).dropRef h) s
    t.reports = s.reports
      ∧ t.freeList = s.freeList ++ s.cellsFreedBy xs
      ∧ ∀ h, t.record h = if h ∈ xs then (s.record h).dropped else s.record h := by
  induction xs with
  | nil =>
    intro s _
    exact ⟨rfl, by simp [State.cellsFreedBy], by simp⟩
  | cons a as ih =>
    intro s hn
    obtain ⟨ha, hn⟩ := List.nodup_cons.1 hn
    have hrec : ∀ k ∈ as, ((bump (.ofLane l .fwdFlushed) s).dropRef a).record k = s.record k := by
      intro k hk
      rw [dropRef_record, if_neg, bump_record]
      rintro rfl
      exact ha hk
    obtain ⟨h1, h2, h3⟩ := ih ((bump (.ofLane l .fwdFlushed) s).dropRef a) hn
    have hcells : ((bump (.ofLane l .fwdFlushed) s).dropRef a).cellsFreedBy as =
        s.cellsFreedBy as := by
      unfold State.cellsFreedBy
      rw [List.flatMap_def, List.flatMap_def]
      congr 1
      apply List.map_congr_left
      intro k hk
      rw [hrec k hk]
    refine ⟨?_, ?_, ?_⟩
    · rw [List.foldl_cons, h1, dropRef_reports, bump_reports]
    · rw [List.foldl_cons, h2, hcells, dropRef_freeList]
      simp [State.cellsFreedBy]
    · intro k
      rw [List.foldl_cons, h3 k]
      by_cases hk : k ∈ as
      · rw [if_pos hk, hrec k hk, if_pos (List.mem_cons_of_mem _ hk)]
      · rw [if_neg hk, dropRef_record, bump_record]
        by_cases e : k = a
        · subst e
          simp
        · rw [if_neg e, if_neg, bump_record]
          simp only [List.mem_cons, not_or]
          exact ⟨e, hk⟩

/-- Flushing forward entries counts each of them once (R129, R166). -/
theorem foldl_flush_counter (l : Lane) (xs : List Handle) : ∀ s t : State,
    s.counter (.ofLane l .fwdFlushed) = t.counter (.ofLane l .fwdFlushed) →
    (xs.foldl (fun s h => (bump (.ofLane l .fwdFlushed) s).dropRef h) s).counter
        (.ofLane l .fwdFlushed) =
      (Nat.repeat (bump (.ofLane l .fwdFlushed)) xs.length t).counter (.ofLane l .fwdFlushed) := by
  induction xs with
  | nil => exact fun s t h => h
  | cons a as ih =>
    intro s t h
    rw [List.foldl_cons, List.length_cons, repeat_succ]
    refine ih _ _ ?_
    have : ((bump (.ofLane l .fwdFlushed) s).dropRef a).counter (.ofLane l .fwdFlushed) =
        (bump (.ofLane l .fwdFlushed) s).counter (.ofLane l .fwdFlushed) := by
      unfold State.counter
      rw [dropRef_counters]
    rw [this]
    exact bump_counter_congr _ h

theorem drops_flush (s : State) (l : Lane) (h : Handle) :
    Drops [.ofLane l .fwdFlushed] s ((bump (.ofLane l .fwdFlushed) s).dropRef h) :=
  (drops_bump s _).trans (drops_dropRef _ h)

/-! ### Discards (R24) -/

theorem setIntake_sub (s : State) (l : Lane) (n : Nat) (h : n ≤ (s.lane l).intake) :
    s.setIntake l ((s.lane l).intake - n) =
      s.setLane l (if n = 0 then s.lane l else
        LaneUnit.intakeTo s.cfg (s.cfg.lane l) ((s.lane l).intake - n) (s.lane l)) := by
  unfold State.setIntake State.modLane
  by_cases hn : n = 0
  · subst hn
    rw [if_pos rfl, Nat.sub_zero, if_pos rfl, State.setLane_self]
  · rw [if_neg hn, if_neg (by omega)]

/-- A discard is what R24 says, for an assembly whose cells are counted in the intake. -/
theorem discardAssembly_eq (s : State) (l : Lane)
    (h : (s.lane l).asm.cells.length ≤ (s.lane l).intake) :
    s.discardAssembly l = s.withoutAssembly l := by
  unfold State.discardAssembly State.returnAssembly State.withoutAssembly State.returnCells
    State.setIntake State.modLane LaneUnit.setAsm
  by_cases hc : (s.lane l).asm.cells = []
  · rcases hr : (s.lane l).asm.record with _ | k <;> cases l <;>
      simp_all [State.lane, State.setLane, State.setRecord]
  · have hl : (s.lane l).asm.cells.length ≠ 0 := by simpa using hc
    have hne : (s.lane l).intake - (s.lane l).asm.cells.length ≠ (s.lane l).intake := by omega
    rcases hr : (s.lane l).asm.record with _ | k <;> cases l <;>
      simp_all [State.lane, State.setLane, State.setRecord]

/-! ### The teardown of a lane (R54) -/

/-- A phase of a teardown: the lane's unit changes by `f` and, through its intake, as R86 and R105 name;
everything else is as after the end of some holders. -/
structure Phase (l : Lane) (f : LaneUnit → LaneUnit) (s t : State) : Prop where
  mine     : SameButIntake (f (s.lane l)) (t.lane l)
  other    : SameButIntake (s.lane (otherLane l)) (t.lane (otherLane l))
  host     : SameHost s t
  delivery : t.dqX = s.dqX ∧ t.dqS = s.dqS
  mem      : t.mem = s.mem
  counters : ∀ c, c ∉ [.ofLane l .fwdFlushed, .reportLost] → t.counter c = s.counter c
  flags    : ∀ x, x ∉ [.rpt, .rptOvf, .countHalf] → t.isPending x = s.isPending x

theorem Phase.ofSet {l : Lane} {f : LaneUnit → LaneUnit} {s t : State}
    (h : Drops [.ofLane l .fwdFlushed, .reportLost] (s.setLane l (f (s.lane l))) t) :
    Phase l f s t := by
  constructor
  · have := h.lanes l
    rwa [State.setLane_lane] at this
  · have := h.lanes (otherLane l)
    rwa [State.setLane_lane_other] at this
  · exact (Kept.setLane (C := survives_sameHost s) (.refl s) l _ : SameHost s _).trans h.host
  · exact ⟨h.delivery.1.trans (State.setLane_dqX _ _ _), h.delivery.2.trans (State.setLane_dqS _ _ _)⟩
  · exact h.mem.trans (State.setLane_mem _ _ _)
  · intro c hc
    rw [h.counters c hc]
    unfold State.counter
    rw [State.setLane_counters]
  · intro x hx
    rw [h.flags x hx]
    unfold State.isPending
    rw [State.setLane_evPend]

theorem Phase.trans {l : Lane} {f g : LaneUnit → LaneUnit} {s t u : State}
    (hg : ∀ a b, SameButIntake a b → SameButIntake (g a) (g b)) (h : Phase l f s t)
    (k : Phase l g t u) : Phase l (g ∘ f) s u := by
  constructor
  · exact (hg _ _ h.mine).trans k.mine
  · exact h.other.trans k.other
  · exact h.host.trans k.host
  · exact ⟨k.delivery.1.trans h.delivery.1, k.delivery.2.trans h.delivery.2⟩
  · exact k.mem.trans h.mem
  · exact fun c hc => (k.counters c hc).trans (h.counters c hc)
  · exact fun x hx => (k.flags x hx).trans (h.flags x hx)

theorem phase_discardAssembly (s : State) (l : Lane) :
    Phase l (LaneUnit.setAsm Assembly.start) s (s.discardAssembly l) := by
  apply Phase.ofSet
  unfold State.discardAssembly State.returnAssembly State.modLane
  dsimp only
  split
  · exact (drops_setRecord _ _ _).trans (drops_returnCells _ _ _)
  · exact drops_returnCells _ _ _

/-- Acked entries that are not on wire leave from the oldest end. -/
def LaneUnit.withoutAcked (u : LaneUnit) : LaneUnit :=
  { u with replay := u.replay.dropWhile ReplayEntry.leaves }

theorem phase_removeAcked (s : State) (l : Lane) :
    Phase l LaneUnit.withoutAcked s (s.removeAcked l) := by
  apply Phase.ofSet
  unfold State.removeAcked LaneUnit.withoutAcked
  dsimp only
  exact drops_ends l l .done ReplayEntry.attempts ReplayEntry.handle _ _

/-- The lane's unit after its unit in progress is cut (R129 step 1). -/
def LaneUnit.unitCut (u : LaneUnit) : LaneUnit :=
  match u.unit with
  | .parcel q =>
    LaneUnit.withoutAcked
      { u with unit := .none, txq := u.cutLine, replay := clearOnWire q u.replay }
  | .word _ => { u with unit := .none, txq := u.cutLine }
  | .none => { u with unit := .none, txq := u.cutLine }

theorem phase_endUnitAtTeardown (s : State) (l : Lane) :
    Phase l LaneUnit.unitCut s (s.endUnitAtTeardown l) := by
  unfold State.endUnitAtTeardown
  dsimp only
  split
  · rename_i q hq
    apply Phase.ofSet
    unfold LaneUnit.unitCut LaneUnit.withoutAcked State.modLane State.removeAcked
    rw [hq]
    dsimp only
    rw [State.setLane_lane, State.setLane_setLane, State.setLane_lane, State.setLane_setLane]
    exact drops_ends l l .done ReplayEntry.attempts ReplayEntry.handle _ _
  · rename_i w hw
    apply Phase.ofSet
    have : (s.lane l).unitCut =
        { s.lane l with unit := .none, txq := (s.lane l).cutLine } := by
      unfold LaneUnit.unitCut
      rw [hw]
    rw [this]
    exact .refl _
  · rename_i hw
    apply Phase.ofSet
    have : (s.lane l).unitCut =
        { s.lane l with unit := .none, txq := (s.lane l).cutLine } := by
      unfold LaneUnit.unitCut
      rw [hw]
    rw [this]
    exact .refl _

theorem phase_loseReplay (s : State) (l : Lane) :
    Phase l (fun u => { u with replay := [] }) s (s.loseReplay l) := by
  apply Phase.ofSet
  unfold State.loseReplay State.modLane
  dsimp only
  exact drops_ends l l .lost ReplayEntry.attempts ReplayEntry.handle _ _

theorem phase_flushForward (s : State) (l : Lane) (c : TrafficClass) :
    Phase l (fun u => u.setFwd c []) s (s.flushForward l c) := by
  apply Phase.ofSet
  unfold State.flushForward State.modLane
  dsimp only
  exact (drops_foldl (f := fun s h => (bump (.ofLane l .fwdFlushed) s).dropRef h)
    (fun s h => drops_flush s l h) _ _).mono (by simp)

theorem phase_cancelSend (s : State) (l : Lane) (c : TrafficClass) :
    Phase l (fun u => u.setSend c []) s (s.cancelSend l c) := by
  apply Phase.ofSet
  unfold State.cancelSend State.modLane
  dsimp only
  exact drops_ends l l .cancelled (fun _ => 0) id _ _

theorem unitCut_eq (u : LaneUnit) :
    ∃ es, u.unitCut = { u with unit := .none, txq := u.cutLine, replay := es } := by
  unfold LaneUnit.unitCut LaneUnit.withoutAcked
  split
  · exact ⟨_, rfl⟩
  · exact ⟨u.replay, rfl⟩
  · exact ⟨u.replay, rfl⟩

/-- What is left of a lane's unit when every holder of it has ended (R129 steps 1 to 5). -/
def LaneUnit.emptied (g : Target) (u : LaneUnit) : LaneUnit :=
  let v := { (u.setAsm Assembly.start).unitCut with replay := [] }
  let v := (v.setFwd .express []).setFwd .standard []
  match g with
  | .off => (v.setSend .express []).setSend .standard []
  | .seek => v

/-- A teardown of a lane up to its last step: the holders have ended, and the lane's own state is still
to be cleared. -/
def State.emptiedLane (s : State) (l : Lane) (g : Target) : State :=
  let s := (((s.discardAssembly l).endUnitAtTeardown l).loseReplay l)
  let s := (s.flushForward l .express).flushForward l .standard
  match g with
  | .off => (s.cancelSend l .express).cancelSend l .standard
  | .seek => s

theorem phase_emptiedLane (s : State) (l : Lane) (g : Target) :
    Phase l (LaneUnit.emptied g) s (s.emptiedLane l g) := by
  have h1 := phase_discardAssembly s l
  have h2 := h1.trans (g := LaneUnit.unitCut) (by
    intro a b h
    unfold SameButIntake at h
    rw [h]
    unfold LaneUnit.unitCut LaneUnit.cutLine LaneUnit.withoutAcked
    dsimp only
    split <;> rfl) (phase_endUnitAtTeardown _ l)
  have h3 := h2.trans (by
    intro a b h
    unfold SameButIntake at h
    rw [h]
    rfl) (phase_loseReplay _ l)
  have h4 := h3.trans (by
    intro a b h
    unfold SameButIntake at h
    rw [h]
    rfl) (phase_flushForward _ l .express)
  have h5 := h4.trans (by
    intro a b h
    unfold SameButIntake at h
    rw [h]
    rfl) (phase_flushForward _ l .standard)
  cases g with
  | seek => exact h5
  | off =>
    have h6 := h5.trans (by
      intro a b h
      unfold SameButIntake at h
      rw [h]
      rfl) (phase_cancelSend _ l .express)
    exact h6.trans (by
      intro a b h
      unfold SameButIntake at h
      rw [h]
      rfl) (phase_cancelSend _ l .standard)

theorem teardown_eq (s : State) (l : Lane) (g : Target) :
    s.teardown l g =
      raise (.lane l) ((if ((s.emptiedLane l g).lane l).held then raise (.held l) (s.emptiedLane l g)
        else s.emptiedLane l g).modLane l (LaneUnit.torn s.cfg g)) := by
  have hc := (phase_emptiedLane s l g).host.cfg
  unfold State.teardown
  have : (if ((s.emptiedLane l g).lane l).held then raise (.held l) (s.emptiedLane l g)
        else s.emptiedLane l g).cfg = s.cfg := by
    split
    · rw [raise_cfg, hc]
    · exact hc
  rw [← this]
  cases g <;> rfl

theorem emptied_keeps (g : Target) (u : LaneUnit) :
    (u.emptied g).lastFault = u.lastFault ∧ (u.emptied g).partnerTimer = u.partnerTimer
      ∧ (u.emptied .seek).sendX = u.sendX ∧ (u.emptied .seek).sendS = u.sendS
      ∧ (u.emptied .off).sendX = [] ∧ (u.emptied .off).sendS = []
      ∧ (u.emptied g).txq = u.cutLine ∧ (u.emptied g).symGone = u.symGone := by
  unfold LaneUnit.emptied
  obtain ⟨es, e⟩ := unitCut_eq (u.setAsm Assembly.start)
  have hc : (u.setAsm Assembly.start).cutLine = u.cutLine := rfl
  rw [e, hc]
  cases g <;> simp [LaneUnit.setFwd, LaneUnit.setSend, LaneUnit.setAsm]

/-- A lane's unit with nothing left on its line idles, or in OFF is quiet (R1). -/
theorem lineNow_of_empty {u : LaneUnit} (h : u.txq = []) :
    u.lineNow = if u.state = .off then .quiet else .symbol .idl := by
  unfold LaneUnit.lineNow
  rw [h]

theorem torn_symGone (c : Settings) (u : LaneUnit) :
    (u.torn c .seek).symGone = u.symGone
      ∧ (u.torn c .off).symGone = if u.txq = [] then 0 else u.symGone := by
  simp [LaneUnit.torn]

/-- Clearing a lane's unit leaves what `TornUnit` says. -/
theorem tornUnit_torn (c : Settings) (g : Target) (u v : LaneUnit) (hl : v.lastFault = u.lastFault)
    (hs : match g with
      | .seek => v.sendX = u.sendX ∧ v.sendS = u.sendS
      | .off => v.sendX = [] ∧ v.sendS = [])
    (hq : v.txq = u.cutLine) (hg : v.symGone = u.symGone) :
    TornUnit c.buplim.toNat g u (v.torn c g) := by
  cases g
  all_goals
    constructor
    case lastFault => exact hl
    case sends => exact hs
    case line => exact hq
    case shown => exact lineNow_of_empty
  case seek.present => exact (torn_symGone c v).1.trans hg
  case off.present => exact hg ▸ (torn_symGone c v).2
  all_goals first
    | rfl
    | exact ⟨rfl, rfl⟩
    | exact ⟨rfl, rfl, rfl⟩
    | exact ⟨rfl, rfl, rfl, rfl⟩
    | exact ⟨rfl, rfl, rfl, rfl, rfl⟩

/-- A teardown does what R54 and the rules it names say. -/
theorem stopped_teardown (s : State) (l : Lane) (g : Target) : Stopped l g s (s.teardown l g) := by
  have p := phase_emptiedLane s l g
  have k := emptied_keeps g (s.lane l)
  have hsame : SameButIntake ((s.lane l).emptied g) ((s.emptiedLane l g).lane l) := p.mine
  have hfault : ((s.emptiedLane l g).lane l).lastFault = (s.lane l).lastFault := by
    rw [hsame]
    exact k.1
  have hheld : ((s.emptiedLane l g).lane l).held = (s.lane l).held := by
    unfold LaneUnit.held
    rw [hsame]
    dsimp only
    rw [k.2.1]
  rw [teardown_eq]
  generalize hm : (if ((s.emptiedLane l g).lane l).held then raise (.held l) (s.emptiedLane l g)
        else s.emptiedLane l g) = m
  have mlane : ∀ j, m.lane j = (s.emptiedLane l g).lane j := by
    intro j
    rw [← hm]
    split <;> simp
  have mhost : SameHost s m := by
    rw [← hm]
    split
    · exact p.host.trans (Kept.raise (C := survives_sameHost _) (.refl _) _)
    · exact p.host
  have mcounter : ∀ c, c ∉ [.ofLane l .fwdFlushed, .reportLost] →
      (raise (.lane l) (m.modLane l (LaneUnit.torn s.cfg g))).counter c = s.counter c := by
    intro c hc
    have : m.counter c = s.counter c := by
      rw [← hm, ← p.counters c hc]
      split <;> rfl
    rw [← this]
    unfold State.counter State.modLane
    simp
  have mevent : ∀ x, x ≠ .lane l → x ≠ .held l → x ∉ [.rpt, .rptOvf, .countHalf] →
      (raise (.lane l) (m.modLane l (LaneUnit.torn s.cfg g))).isPending x = s.isPending x := by
    intro x h1 h2 h3
    have : m.isPending x = s.isPending x := by
      rw [← hm, ← p.flags x h3]
      split
      · rw [isPending_raise, beq_eq_false_iff_ne.2 h2, Bool.or_false]
      · rfl
    rw [← this, isPending_raise, beq_eq_false_iff_ne.2 h1, Bool.or_false]
    unfold State.isPending State.modLane
    simp
  refine { unit := ?_, lane := ?_, held := ?_, other := ?_, delivery := ?_, host := ?_, cells := ?_,
           counters := ?_, events := ?_, failures := ?_, bring := ?_ }
  · rw [raise_lane, State.modLane_lane, mlane]
    refine tornUnit_torn s.cfg g _ _ hfault ?_ (by rw [hsame]; exact k.2.2.2.2.2.2.1)
      (by rw [hsame]; exact k.2.2.2.2.2.2.2)
    cases g
    · rw [hsame]
      exact ⟨k.2.2.1, k.2.2.2.1⟩
    · rw [hsame]
      exact ⟨k.2.2.2.2.1, k.2.2.2.2.2.1⟩
  · rw [isPending_raise]
    simp
  · have e : m.isPending (.held l) = (s.isPending (.held l) || (s.lane l).held) := by
      rw [← hm, ← p.flags (.held l) (by simp), ← hheld]
      split
      · rename_i h
        rw [isPending_raise, h]
        simp
      · rename_i h
        simp [h]
    rw [isPending_raise, ← e]
    unfold State.isPending State.modLane
    simp
  · rw [raise_lane, State.modLane_lane_other, mlane]
    exact p.other
  · have : m.dqX = s.dqX ∧ m.dqS = s.dqS := by
      rw [← hm]
      split
      · exact ⟨(raise_dqX _ _).trans p.delivery.1, (raise_dqS _ _).trans p.delivery.2⟩
      · exact p.delivery
    unfold State.modLane
    simpa using this
  · exact mhost.trans
      (Kept.raise (C := survives_sameHost m) (Kept.modLane (C := survives_sameHost m) (.refl m) _ _) _)
  · have : m.mem = s.mem := by
      rw [← hm]
      split
      · exact (raise_mem _ _).trans p.mem
      · exact p.mem
    unfold State.modLane
    simpa using this
  · exact fun c hc => mcounter c fun h => hc (List.mem_cons_of_mem _ h)
  · intro x hx
    have hx' : x ≠ .lane l ∧ x ≠ .held l ∧ x ∉ [.rpt, .rptOvf, .countHalf] := by
      simp only [List.mem_cons, List.not_mem_nil, or_false, not_or] at hx ⊢
      exact ⟨hx.1, hx.2.1, hx.2.2.2⟩
    exact mevent x hx'.1 hx'.2.1 hx'.2.2
  · exact mcounter _ (by simp)
  · exact mevent _ (by simp) (by simp) (by simp)

/-- An involuntary teardown is counted and signalled as R55 says. -/
theorem lost_failLane (s : State) (l : Lane) :
    Lost l (s.lane l).state.target s (s.failLane l) := by
  unfold State.failLane
  dsimp only
  have h := stopped_teardown (raise (.bring l) (bump (.ofLane l .laneFailures) s)) l
    (s.lane l).state.target
  have hu : (raise (.bring l) (bump (.ofLane l .laneFailures) s)).lane l = s.lane l := by simp
  have ho : (raise (.bring l) (bump (.ofLane l .laneFailures) s)).lane (otherLane l) =
      s.lane (otherLane l) := by simp
  refine { unit := ?_, lane := h.lane, held := ?_, other := ?_, delivery := ?_, host := ?_,
           cells := ?_, counters := ?_, events := ?_, failures := ?_, bring := ?_ }
  · have := h.unit
    rw [hu] at this
    simpa using this
  · rw [h.held, hu, isPending_raise, isPending_bump _ (.held l) s Cause.noConfusion,
      beq_eq_false_iff_ne.2 (Cause.noConfusion : Cause.held l ≠ Cause.bring l), Bool.or_false]
  · have := h.other
    rwa [ho] at this
  · simpa using h.delivery
  · exact SameHost.trans (Kept.raise (C := survives_sameHost s)
      (Kept.bump (C := survives_sameHost s) (.refl s) _) _) h.host
  · simpa using h.cells
  · intro c hc
    have : c ≠ .ofLane l .laneFailures := fun e => hc (e ▸ List.mem_cons_self)
    rw [h.counters c hc, ← bump_counter_of_ne s this]
    rfl
  · intro x hx
    have h1 : x ≠ .bring l ∧ x ≠ .countHalf := by
      simp only [List.mem_cons, List.not_mem_nil, or_false, not_or] at hx
      exact ⟨hx.2.2.1, hx.2.2.2.2.2⟩
    rw [h.events x hx, isPending_raise, isPending_bump _ _ _ h1.2, beq_eq_false_iff_ne.2 h1.1,
      Bool.or_false]
  · rw [h.failures]
    rfl
  · rw [h.bring, isPending_raise]
    simp

end Sys2Proof.Machine
end

