-- ==== Sys2Proof/Laws/Reception.lean ====
section
/-! SUPPORT. What taking a symbol or a whole link word does before its owner sees it, how updates of
a lane pass counters and flags, and what a handover leaves of the lane's unit. -/

namespace Sys2Proof.Machine

/-- An update of a lane passes a counter's increment. -/
theorem setLane_bump (c : Counter) (s : State) (l : Lane) (u : LaneUnit) :
    (bump c s).setLane l u = bump c (s.setLane l u) := by
  unfold bump State.counter State.setLane
  cases l
  · dsimp only
    by_cases h : s.counters[c.index] = 0xFFFF
    · rw [if_pos h, if_pos h]
    · by_cases k : s.counters[c.index] = 32767
      · rw [if_neg h, if_neg h, if_pos k, if_pos k]
        rfl
      · rw [if_neg h, if_neg h, if_neg k, if_neg k]
  · dsimp only
    by_cases h : s.counters[c.index] = 0xFFFF
    · rw [if_pos h, if_pos h]
    · by_cases k : s.counters[c.index] = 32767
      · rw [if_neg h, if_neg h, if_pos k, if_pos k]
        rfl
      · rw [if_neg h, if_neg h, if_neg k, if_neg k]

/-- An update of a lane passes a raised flag. -/
theorem setLane_raise (c : Cause) (s : State) (l : Lane) (u : LaneUnit) :
    (raise c s).setLane l u = raise c (s.setLane l u) := by
  cases l <;> rfl

/-- With no parcel open at the receiver, a whole link word only brings the framing to BETWEEN. -/
theorem closeForWord_eq (s : State) (l : Lane)
    (h : (s.lane l).asm.isOpen = false ∨ (s.lane l).framing ≠ .inParcel) :
    s.closeForWord l = s.setLane l { s.lane l with framing := .between } := by
  unfold State.closeForWord State.breakUnit State.setFraming State.modLane
  cases hf : (s.lane l).framing with
  | between =>
    have e : { s.lane l with framing := .between } = s.lane l := by rw [← hf]
    rw [e]
    cases l <;> rfl
  | inParcel =>
    rcases h with h | h
    · simp [h]
    · exact absurd hf h
  | inWord bs => simp

/-- On a lane that is not OFF, with no parcel open, a whole link word is its owner's on the lane's unit
brought to BETWEEN. -/
theorem onWord_eq (s : State) (l : Lane) (w : LinkWord) (ho : (s.lane l).state ≠ .off)
    (h : (s.lane l).asm.isOpen = false ∨ (s.lane l).framing ≠ .inParcel) :
    s.onWord l w = (s.setLane l (s.lane l).between).takeWord l w := by
  unfold State.onWord State.onSymbol
  rw [if_neg ho]
  dsimp only
  rw [closeForWord_eq]
  · simp [State.modLane, LaneUnit.transition, LaneUnit.between, LaneUnit.heard]
  · simpa [State.modLane, LaneUnit.transition] using h

/-- In OFF no symbol is taken (R4). -/
theorem onSymbol_off (s : State) (l : Lane) (f : State → State) (h : (s.lane l).state = .off) :
    s.onSymbol l f = s := by
  unfold State.onSymbol
  rw [if_pos h]

/-- On a lane that is not OFF a symbol is taken by the unit that has just heard it (R2, R4). -/
theorem onSymbol_eq (s : State) (l : Lane) (f : State → State) (h : (s.lane l).state ≠ .off) :
    s.onSymbol l f = f (s.setLane l (s.lane l).heard) := by
  unfold State.onSymbol
  rw [if_neg h]
  rfl

/-! ### Handover (R76) -/

/-- A lane's unit once its intake is set: an unchanged value is no change (R27; log 13). -/
theorem setIntake_lane (s : State) (l : Lane) (n : Nat) :
    (s.setIntake l n).lane l = if n = (s.lane l).intake then s.lane l
      else LaneUnit.intakeTo s.cfg (s.cfg.lane l) n (s.lane l) := by
  unfold State.setIntake
  split <;> simp [State.modLane_lane]

/-- A lane's unit once its parcel is handed over: the assembly is at its starting values, and the cells of
the parcel stay in its record while a part survives, and are returned where none does (R26, R76). -/
def LaneUnit.handedOver (c : Settings) (m : LaneSettings) (survives : Bool) (u : LaneUnit) : LaneUnit :=
  let kept := { u with asm := Assembly.start }
  if survives || u.asm.cells.isEmpty then kept
  else LaneUnit.intakeTo c m (u.intake - u.asm.cells.length) kept

/-- Returning the cells of a lane's parcel, once its assembly is at its starting values. -/
theorem returnCells_handedOver {s t : State} {l : Lane}
    (hle : (s.lane l).asm.cells.length ≤ (s.lane l).intake)
    (hl : t.lane l = { s.lane l with asm := Assembly.start }) (hc : t.cfg = s.cfg) :
    (t.returnCells (some (.fromLane l)) (s.lane l).asm.cells).lane l =
      (s.lane l).handedOver s.cfg (s.cfg.lane l) false := by
  have e : ({ t with freeList := t.freeList ++ (s.lane l).asm.cells } : State).lane l = t.lane l := by
    cases l <;> rfl
  unfold State.returnCells LaneUnit.handedOver
  dsimp only
  rw [setIntake_lane, e, hl]
  dsimp only
  by_cases h : (s.lane l).asm.cells = []
  · rw [if_pos (by rw [h]; rfl), if_pos (by rw [h]; rfl)]
  · have : (s.lane l).asm.cells.length ≠ 0 := by simpa using h
    rw [if_neg (by omega), if_neg (by simp [h]), hc]

/-- A handover leaves the lane's unit handed over; the record is FREE again exactly where no part
survives, and there is none where the assembly had none. -/
theorem handover_lane (s : State) (l : Lane) (hd : Header) (d f : Bool)
    (hle : (s.lane l).asm.cells.length ≤ (s.lane l).intake) :
    (∀ k, (s.lane l).asm.record = some k →
      ((s.handover l hd d f).record k).isFree = !(d || f)
      ∧ (s.handover l hd d f).lane l = (s.lane l).handedOver s.cfg (s.cfg.lane l) (d || f))
    ∧ ((s.lane l).asm.record = none →
      (s.handover l hd d f).lane l = (s.lane l).handedOver s.cfg (s.cfg.lane l) false) := by
  have hs : (s.modLane l (LaneUnit.setAsm Assembly.start)).lane l =
      { s.lane l with asm := Assembly.start } := State.modLane_lane _ _ _
  constructor
  · intro k hk
    unfold State.handover
    simp only [hk]
    cases d <;> cases f
    · simp only [Bool.toNat_false, Nat.add_zero, Bool.false_eq_true, if_false, if_true, Bool.or_false,
        Bool.not_false]
      unfold State.freeRecord
      dsimp only
      constructor
      · rw [State.record, (sameBooks_returnCells _ _ _).records]
        show (State.record _ k).isFree = true
        rw [State.setRecord_record]
        decide
      · rw [State.setRecord_record]
        exact returnCells_handedOver hle (by simp [hs]) (by simp [State.modLane])
    all_goals
      simp only [Bool.toNat_false, Bool.toNat_true]
      constructor
      · simp [State.joinDelivery, State.joinForward, State.modLane, Record.handover, Record.isFree,
          State.record, State.setRecord]
      · simp [State.joinDelivery, State.joinForward, hs, LaneUnit.handedOver]
        try (rw [State.modLane_lane_ne]; simp [hs]; cases l <;> decide)
  · intro hk
    unfold State.handover
    simp only [hk]
    exact returnCells_handedOver hle hs (by simp [State.modLane])

end Sys2Proof.Machine
end

