-- ==== Sys2Proof/Laws/Time.lean ====
section
/-! SUPPORT. What many ticks do to one timer and to one line, what a lane keeps in time, and which matters
come together in a tick. -/

namespace Sys2Proof.Machine

/-- A tick is a whole number of quarters of a bit time, and four quarters are a bit time. -/
theorem Rate.quarters_mul (r : Rate) : r.quarters * r.ticksPerBit = 4 := by cases r <;> rfl

/-- A tick is no longer than a bit time. -/
theorem Rate.quarters_le (r : Rate) : r.quarters ≤ 4 := by cases r <;> decide

/-- The beats in some ticks, counted in quarters or in ticks. -/
theorem Rate.beats_eq (r : Rate) (k : Nat) :
    k * r.quarters / 256 = k / (64 * r.ticksPerBit) := by
  cases r <;> simp only [Rate.quarters, Rate.ticksPerBit] <;> omega

/-- A timer just loaded, some ticks later. -/
theorem Countdown.count_repeat {q : Nat} (hq : q ≤ 256) (n : Nat) : ∀ k : Nat,
    Nat.repeat (Countdown.count q) k (.load n) =
      { left := n - k * q / 256, gone := k * q % 256 }
  | 0 => by simp [Nat.repeat, Countdown.load]
  | k + 1 => by
    have e : (k + 1) * q = k * q + q := Nat.succ_mul k q
    rw [Nat.repeat, Countdown.count_repeat hq n k, Countdown.count, e]
    dsimp only
    split
    · rw [Countdown.mk.injEq]
      omega
    · rw [Countdown.mk.injEq]
      omega

/-- A partner hold just taken, some ticks later: it stands at the end of its last beat. -/
theorem Countdown.countHold_repeat {q : Nat} (hq : q ≤ 256) {n : Nat} (hn : 0 < n) : ∀ k : Nat,
    Nat.repeat (Countdown.countHold q) k (.load n) =
      if n * 256 ≤ k * q then { left := 1, gone := 256 }
      else { left := n - k * q / 256, gone := k * q % 256 }
  | 0 => by
    rw [if_neg (by omega)]
    simp [Nat.repeat, Countdown.load]
  | k + 1 => by
    have e : (k + 1) * q = k * q + q := Nat.succ_mul k q
    rw [Nat.repeat, Countdown.countHold_repeat hq hn k, e]
    by_cases h : n * 256 ≤ k * q
    · rw [if_pos h, if_pos (by omega)]
      simp [Countdown.countHold]
    · rw [if_neg h]
      unfold Countdown.countHold Countdown.count
      dsimp only
      rw [if_neg (by omega)]
      by_cases h1 : n * 256 ≤ k * q + q
      · rw [if_pos h1, if_pos (by omega), Countdown.mk.injEq]
        omega
      · rw [if_neg h1, if_neg (by omega)]
        split
        · rw [Countdown.mk.injEq]
          omega
        · rw [Countdown.mk.injEq]
          omega

/-- A map repeated on an optional value. -/
theorem repeat_map {α : Type} (f : α → α) (o : Option α) : ∀ k : Nat,
    Nat.repeat (Option.map f) k o = o.map (Nat.repeat f k)
  | 0 => by cases o <;> rfl
  | k + 1 => by rw [Nat.repeat, repeat_map f o k]; cases o <;> rfl

/-- What a map leaves alone it leaves alone repeated. -/
theorem repeat_fixed {α : Type} (f : α → α) (a : α) (h : f a = a) : ∀ k : Nat, Nat.repeat f k a = a
  | 0 => rfl
  | k + 1 => by rw [Nat.repeat, repeat_fixed f a h k, h]

/-- A running replay timer, some ticks later. -/
theorem ReplayTimer.count_repeat (q : Nat) (t : Countdown) : ∀ k : Nat,
    Nat.repeat (ReplayTimer.count q) k (.running t) = .running (Nat.repeat (Countdown.count q) k t)
  | 0 => rfl
  | k + 1 => by rw [Nat.repeat, ReplayTimer.count_repeat q t k]; rfl

/-! ### A lane in time -/

/-- One tick of the line changes what is left on it, and nothing else. -/
theorem ageLine_eq (u : LaneUnit) : ∃ q n, u.ageLine = { u with txq := q, symGone := n } := by
  unfold LaneUnit.ageLine
  split
  · exact ⟨u.txq, u.symGone, rfl⟩
  · split
    · exact ⟨u.txq, _, rfl⟩
    · exact ⟨_, 0, rfl⟩

/-- What time leaves alone: the lane's state, its rate and whether it watches the line. -/
theorem age_keeps (u : LaneUnit) :
    u.age.state = u.state ∧ u.age.rate = u.rate ∧ u.age.watches = u.watches := by
  obtain ⟨q, n, e⟩ := ageLine_eq u
  rw [LaneUnit.age, e, LaneUnit.ageTimers]
  by_cases h : u.state = .off
  · rw [if_pos h]
    exact ⟨rfl, rfl, rfl⟩
  · rw [if_neg h]
    refine ⟨rfl, rfl, ?_⟩
    simp [LaneUnit.watches]

/-- A part of a lane that a tick changes by itself, some ticks later. -/
theorem repeat_age {α : Type} (p : LaneUnit → Prop) (hp : ∀ u, p u → p u.age)
    (f : LaneUnit → α) (g : α → α) (h : ∀ u, p u → f u.age = g (f u)) (u : LaneUnit) (hu : p u) :
    ∀ k : Nat, p (Nat.repeat LaneUnit.age k u)
      ∧ f (Nat.repeat LaneUnit.age k u) = Nat.repeat g k (f u)
  | 0 => ⟨hu, rfl⟩
  | k + 1 => by
    have i := repeat_age p hp f g h u hu k
    exact ⟨hp _ i.1, by rw [Nat.repeat, h _ i.1, i.2, Nat.repeat]⟩

/-- The timers of a lane that is not OFF, after one tick. -/
theorem age_timers {u : LaneUnit} (h : u.state ≠ .off) :
    let q := u.rate.quarters
    u.age.greetTimer = u.greetTimer.map (Countdown.count q)
    ∧ u.age.bringTimer = u.bringTimer.map (Countdown.count q)
    ∧ u.age.stopTimer = u.stopTimer.map (Countdown.count q)
    ∧ u.age.grace = u.grace.map (Countdown.count q)
    ∧ u.age.ackTimer = u.ackTimer.map (Countdown.count q)
    ∧ u.age.replayTimer = u.replayTimer.count q
    ∧ u.age.renewTimer = u.renewTimer.map (Countdown.count q)
    ∧ u.age.partnerTimer = u.partnerTimer.countHold q
    ∧ u.age.quiet = (if u.watches then u.quiet.count q else u.quiet) := by
  obtain ⟨q, n, e⟩ := ageLine_eq u
  rw [LaneUnit.age, e, LaneUnit.ageTimers, if_neg h]
  exact ⟨rfl, rfl, rfl, rfl, rfl, rfl, rfl, rfl, rfl⟩

/-- One tick of the line, whatever the timers do. -/
theorem age_line (u : LaneUnit) :
    u.age.txq = u.ageLine.txq ∧ u.age.symGone = u.ageLine.symGone := by
  unfold LaneUnit.age LaneUnit.ageTimers
  split <;> exact ⟨rfl, rfl⟩

/-! ### The matters of a tick -/

/-- A list of one at most is arranged as it is. -/
theorem arrange_of_length_le_one {α : Type} (n k : Nat) {xs : List α} (h : xs.length ≤ 1) :
    arrange n k xs = xs := by
  cases n with
  | zero => rfl
  | succ n => rw [arrange, if_pos h]

/-- Arranging a list leaves its members. -/
theorem arrange_perm {α : Type} : ∀ (n k : Nat) (xs : List α), (arrange n k xs).Perm xs
  | 0, _, xs => List.Perm.refl xs
  | n + 1, k, xs => by
    rw [arrange]
    split
    · exact List.Perm.refl xs
    · rename_i h
      have hi : Config.freePick k % xs.length < xs.length := Nat.mod_lt _ (by omega)
      have e : xs = xs.take (Config.freePick k % xs.length)
          ++ xs[Config.freePick k % xs.length] :: xs.drop (Config.freePick k % xs.length + 1) := by
        rw [← List.drop_eq_getElem_cons hi, List.take_append_drop]
      dsimp only
      rw [List.getElem?_eq_getElem hi, List.eraseIdx_eq_take_drop_succ]
      exact ((arrange_perm n (k + 1) _).cons _).trans
        (List.perm_middle.symm.trans (List.Perm.of_eq e.symm))

/-- Every matter is in the list, once. -/
theorem mem_timedMatters (x : Lane × TimedKind) : x ∈ timedMatters := by
  obtain ⟨l, k⟩ := x
  cases l <;> cases k <;> decide

theorem dueNow_nodup (s : State) : s.dueNow.Nodup := by
  unfold State.dueNow
  split
  · exact (by decide : timedMatters.Nodup).filter _
  · exact List.nodup_nil

/-- With nothing due nothing comes together. -/
theorem dueNow_of_none {s : State} (h : ∀ l k, s.isDue l k = false) : s.dueNow = [] := by
  unfold State.dueNow
  rw [if_neg]
  simp [h]

/-- With something due, everything that can happen beside it comes together. -/
theorem mem_dueNow {s : State} {l : Lane} {k : TimedKind} (h : s.isDue l k = true)
    (x : Lane × TimedKind) : x ∈ s.dueNow ↔
      s.isDue x.1 x.2 = true ∨ (x.2 = .opportunity ∧ (s.lane x.1).atIdlEnd = true) := by
  unfold State.dueNow
  rw [if_pos (List.any_eq_true.2 ⟨(l, k), mem_timedMatters _, h⟩), List.mem_filter]
  simp [mem_timedMatters, State.canHappen]

/-- A matter that is due has the effect of its command. -/
theorem exec_command (l : Lane) (k : TimedKind) (s : State) :
    exec (k.command l) s = .next (s.happen l k) := by cases k <;> rfl

end Sys2Proof.Machine
end

