-- ==== Sys2Proof/Tests/Slice0.lean ====
section
/-! SUPPORT. The model's own tests: the check on command terms, formats against the manual's numbers, one
or two small tests of every command, and for every statement with hypotheses a concrete case that meets
them (theorems `witness_…`, clause by clause, at the ends of the ranges where a clause has one). -/

namespace Sys2Proof.Tests

set_option Elab.async false

open Sys2Proof.Machine

/-! ### Small states -/

/-- The state a command answers with. -/
def after (c : Instr) (s : State) : State :=
  match exec c s with
  | .next t => t
  | .fault _ => s
  | .refused _ => s

/-- A GREET of station 7 with everything on. -/
def greet7 : Greet := { ack := true, hold := true, station := 7, rates := 7 }

/-- A lane in UP with hold use. -/
def upUnit : LaneUnit :=
  { LaneUnit.reset with
    state := .up, neighbour := some greet7, identical := 2, sent := 2, agreed := some .r16
    holdUse := true }

/-- A lane in AGREE. -/
def agreeUnit : LaneUnit :=
  { LaneUnit.reset with
    state := .agree, neighbour := some greet7, identical := 1, sent := 2
    bringTimer := some (.load 100), greetTimer := some (.load 16) }

/-- A lane in SEEK. -/
def seekUnit : LaneUnit :=
  { LaneUnit.reset with state := .seek, bringTimer := some (.load 100), greetTimer := some (.load 16) }

/-- Station 5 after reset. -/
def station5 : State := { State.reset with cfg := { Settings.reset with station := 5 } }

/-- Station 5 with given lane units. -/
def lanes (w e : LaneUnit) : State := { station5 with laneW := w, laneE := e }

/-- A received record. -/
def received (n refs : Nat) (cs : List CellNo) : Record :=
  { Record.cleared with
    dest := 9, origin := 7, hop := 3, tag := 0x1234, length := n, arrival := some (.fromLane .W)
    chain := cs, refs := refs }

/-- A posted local record. -/
def posted (refs : Nat) : Record :=
  { Record.cleared with dest := 9, origin := 5, hop := 15, arrival := some .ofHost, refs := refs }

/-- An entry of a replay list. -/
def entry (q : Seq) (h : Handle) : ReplayEntry :=
  { seq := q, handle := h, cls := .standard, attempts := 0, onWire := false, acked := false }

/-- A parcel header with a seq and a dest, length 0. -/
def head (q : Seq) (dest : Byte) : Header :=
  { kind := 1, cls := .standard, seq := q, dest := dest, origin := 7, tag := 0x1234, hop := 3,
    length := 0 }

/-- The assembly after all bytes of a parcel with that header. -/
def whole (h : Header) : Assembly :=
  let c := crc16 h.encode
  { Assembly.start with
    isOpen := true, record := some 0, header := h.encode, check := [hiByte c, loByte c]
    byteCount := 10, crc := 0, crcBeforeCheck := c }

/-- A lane in UP inside a parcel with that assembly. -/
def inParcel (a : Assembly) : LaneUnit := { upUnit with framing := .inParcel, asm := a }

/-- Station 5 with Lane W in UP, having received all bytes of a parcel, and its record 0. -/
def receiving (h : Header) : State :=
  (lanes (inParcel (whole h)) upUnit).setRecord 0
    { Record.cleared with arrival := some (.fromLane .W), assembly := some .W }

/-- Lane W in UP with a replay list of three local entries, 0 to 2. -/
def sending : State :=
  ((lanes { upUnit with
      replay := [entry 0 0, entry 1 1, entry 2 2], nextSeq := 3, replayTimer := .running (.load 9)
      pointer := some 1 } upUnit).setRecord 0 (posted 1)).setRecord 1 (posted 1)
    |>.setRecord 2 (posted 1)

/-- A compose with the given length and cells. -/
def composing (n : Nat) (cs : List CellNo) : State :=
  { (lanes upUnit upUnit).setRecord 0
      { Record.cleared with arrival := some .ofHost, compose := true, chain := cs } with
    composeOpen := true, composeLen := n, sdest := 9, sctl := 0x002F }

/-! ### The check on command terms: each ill-formed term is refused -/

theorem test_wf_refuses_known_code_as_unknown :
    ∀ c ∈ commandCodes, (Instr.unknownCommand c 0).wellFormed = false := by decide
theorem test_wf_refuses_odd_offset : (Instr.registerWrite 0x05 0).wellFormed = false := by decide
theorem test_wf_refuses_offset_outside_window :
    (Instr.registerWrite 0x80 0).wellFormed = false := by decide
theorem test_wf_refuses_offset_with_own_row :
    ∀ o ∈ ownRowOffsets, (Instr.registerWrite o 0).wellFormed = false := by decide
theorem test_wf_refuses_greet_of_station_0 :
    (Instr.greetReceived .W { greet7 with station := 0 }).wellFormed = false := by decide
theorem test_wf_refuses_greet_of_station_240 :
    (Instr.greetReceived .W { greet7 with station := 240 }).wellFormed = false := by decide
theorem test_wf_admits_the_ends_of_each_check :
    (Instr.unknownCommand 0x00 0).wellFormed = true
    ∧ (Instr.registerWrite 0x7E 0).wellFormed = true
    ∧ (Instr.greetReceived .W { greet7 with station := 1 }).wellFormed = true
    ∧ (Instr.greetReceived .E { greet7 with station := 239 }).wellFormed = true := by decide

/-! ### Formats -/

theorem test_crc16_check_value :
    crc16 [0x31, 0x32, 0x33, 0x34, 0x35, 0x36, 0x37, 0x38, 0x39] = 0x29B1 := by decide +kernel
theorem test_crc8_check_value :
    crc8 [0x31, 0x32, 0x33, 0x34, 0x35, 0x36, 0x37, 0x38, 0x39] = 0xF4 := by decide +kernel
/-- R176 written out: express, seq 5, dest 12, origin 7, tag 0xABCD, hop 3, length 258. -/
theorem test_header_bytes :
    (Header.mk 1 .express 5 12 7 0xABCD 3 258).encode
      = [0x01, 0x45, 0x0C, 0x07, 0xAB, 0xCD, 0x31, 0x02] := by decide +kernel
/-- R177 written out: HOLD of standard traffic for 1024 beats. -/
theorem test_hold_word_bytes :
    (LinkWord.hold .standard 1024).body = [0x13, 0x02, 0x04, 0x00] := by decide +kernel
/-- R177 written out: GREET of station 7, both flags, rates 4 and 16. -/
theorem test_greet_word_bytes :
    (LinkWord.greet { ack := true, hold := true, station := 7, rates := 5 }).body
      = [0x14, 0x03, 0x07, 0x05] := by decide +kernel
/-- R179 written out: handle 5, Lane E, LOST after 2 resends. -/
theorem test_report_word :
    ({ handle := 5, lane := .E, status := .lost, resends := 2 } : Report).word = 0xD205 := by
  decide +kernel
theorem test_route_word : routeWord (some { station := 9, action := .discard }) = 0x0209 := by
  decide +kernel
theorem test_lstat_word : upUnit.lstat = 0x0073 := by decide +kernel
theorem test_reset_memory_is_canonical : State.reset.mem.wf = true := by decide
theorem test_memory_write_of_unlisted_value_removes :
    Memory.write (Memory.write [] 7 3) 7 0 = [] := by decide

/-! ### Every command once -/

theorem test_pinReset : (after .pinReset sending).laneW = LaneUnit.reset := by decide +kernel
theorem test_laneEnable :
    (after (.laneEnable 0) station5).laneW.state = .seek
    ∧ (after (.laneEnable 0) State.reset).cmdst = .refusedConfig := by decide +kernel
theorem test_laneStop :
    (after (.laneStop 0) sending).laneW.state = .stopping
    ∧ (after (.laneStop 1) sending).laneE.state = .off := by decide +kernel
theorem test_laneAbort_reports_lost :
    (after (.laneAbort 0) sending).reports.map (fun r => (r.handle, r.status))
      = [(0, .lost), (1, .lost), (2, .lost)] := by decide +kernel
theorem test_take :
    (after (.take 2) { station5 with dqS := [4] }).slot = some 4
    ∧ (after (.take 0) { station5 with dqS := [4] }).cmdst = .refusedEmpty := by decide +kernel
/-- A parcel cut in the instant of its start shows ABT alone; with a part of its SOP gone, SOP and ABT (the
model's choice, log 9). -/
theorem test_cut_in_the_instant_of_a_start :
    let cut (n : Nat) := (after (.laneAbort 0) { sending with laneW :=
      { sending.laneW with
        unit := .parcel 1, txq := [⟨.sop, .r16⟩, ⟨.data 1, .r16⟩], symGone := n } }).laneW.txq
    cut 0 = [⟨.abt, .r16⟩] ∧ cut 1 = [⟨.sop, .r16⟩, ⟨.abt, .r16⟩] := by decide +kernel
theorem test_release_frees :
    (after (.release 0)
      { station5.setRecord 4 (received 3 1 [9]) with slot := some 4, freeList := [1, 2] }).freeList
      = [1, 2, 9] := by decide +kernel
theorem test_openSend :
    (after (.openSend 0) station5).composeHandle = 0
    ∧ (after (.openSend 0) (receiving (head 0 9))).composeHandle = 1 := by decide +kernel
theorem test_post :
    (after (.post 1) (composing 2 [0])).laneW.sendS = [0]
    ∧ ((after (.post 1) (composing 2 [0])).record 0).length = 1 := by decide +kernel
theorem test_abandon :
    (after (.abandon 0) { composing 2 [7] with freeList := [8], localCount := 1 }).freeList = [8, 7] := by
  decide +kernel
theorem test_routeClear :
    (after (.routeClear 0)
      { station5 with routes := station5.routes.set 3 (some ⟨9, .adopt⟩) }).routes[3] = none := by
  decide +kernel
theorem test_softReset :
    (after (.softReset 0) sending).cfg.station = 5
    ∧ (after (.softReset 0) sending).cmdst = .taken := by decide +kernel
theorem test_unknownCommand :
    (after (.unknownCommand 0x04 0) station5).cmdst = .unknown
    ∧ (after (.unknownCommand 0x04 0) station5).evPend = 0x1000 := by decide +kernel
theorem test_ddataRead :
    (after .ddataRead
      { station5.setRecord 4 (received 2 1 [1]) with
        slot := some 4, mem := [(64, 0xAA), (65, 0xBB)] }).busOut = 0xBBAA := by decide +kernel
theorem test_sdataWrite_stores_low_byte_first :
    (after (.sdataWrite 0xBBAA) (composing 0 [])).mem = [(0, 0xAA), (1, 0xBB)]
    ∧ (after (.sdataWrite 0xBBAA) (composing 512 [])).tooLong = true := by decide +kernel
theorem test_rptqRead :
    (after .rptqRead { station5 with reports := [⟨5, .E, .lost, 2⟩] }).busOut = 0xD205
    ∧ (after .rptqRead station5).busOut = 0 := by decide +kernel
theorem test_cvalRead :
    (after .cvalRead { station5 with counters := station5.counters.set 0 7 }).busOut = 7
    ∧ (after .cvalRead { station5 with counters := station5.counters.set 0 7 }).counters[0] = 0 := by
  decide +kernel
theorem test_cselWrite :
    (after (.cselWrite 47) station5).csel = 47 ∧ (after (.cselWrite 48) station5).csel = 0 := by
  decide +kernel
theorem test_evpendWrite :
    (after (.evpendWrite 0x0003) { station5 with evPend := 0x0007 }).evPend = 4 := by decide +kernel
theorem test_evenWrite :
    (after (.evenWrite 0x1FFF) station5).evEnable = 0x1FFF
    ∧ (after (.evenWrite 0x2000) station5).cmdst = .refusedArg := by decide +kernel
theorem test_rtentWrite :
    (after (.rtentWrite 0x0109) station5).routes[0] = some ⟨9, .adopt⟩
    ∧ (after (.rtentWrite 0x00F0) station5).cmdst = .refusedArg := by decide +kernel
theorem test_registerWrite :
    (after (.registerWrite 0x28 16) station5).cfg.rtmo = 16
    ∧ (after (.registerWrite 0x28 16) (lanes upUnit LaneUnit.reset)).cmdst = .refusedState := by
  decide +kernel
theorem test_sopReceived :
    (after (.sopReceived .W) (lanes upUnit upUnit)).laneW.asm.record = some 0
    ∧ (after (.sopReceived .W) (lanes seekUnit upUnit)).laneW.asm.isOpen = false := by decide +kernel
theorem test_sowReceived :
    (after (.sowReceived .E) (lanes upUnit upUnit)).laneE.framing = .inWord [] := by decide +kernel
theorem test_idlReceived_breaks_parcel :
    (after (.idlReceived .W) (receiving (head 0 9))).counter (.ofLane .W .rxBad) = 1 := by
  decide +kernel
theorem test_dataByteReceived :
    (after (.dataByteReceived .W 0x11)
      (lanes { upUnit with framing := .inWord [] } upUnit)).laneW.framing = .inWord [0x11] := by
  decide +kernel
theorem test_dataByteReceived_completes_word :
    (after (.dataByteReceived .W (crc8 (LinkWord.ack 1).body))
      { sending with laneW := { sending.laneW with
          framing := .inWord (LinkWord.ack 1).body } }).laneW.replay.map (·.seq) = [2] := by
  decide +kernel
theorem test_eopReceived_delivers :
    (after (.eopReceived .W) (receiving (head 0 5))).dqS = [0]
    ∧ (after (.eopReceived .W) (receiving (head 0 5))).evPend = 2 := by decide +kernel
theorem test_eopReceived_forwards :
    (after (.eopReceived .W) (receiving (head 0 9))).laneE.fwdS = [0]
    ∧ (after (.eopReceived .W) (receiving (head 0 9))).laneW.ackTimer = some (.load 32) := by decide +kernel
theorem test_abtReceived :
    (after (.abtReceived .W) (receiving (head 0 9))).counter (.ofLane .W .rxAborted) = 1 := by
  decide +kernel
theorem test_ackReceived :
    (after (.ackReceived .W 1) sending).reports.map (·.handle) = [0, 1]
    ∧ (after (.ackReceived .W 7) sending).counter (.ofLane .W .ackStray) = 1 := by decide +kernel
/-- Two reports at a queue of 31: the first joins with RPT, the second is lost with RPT_OVF (R156). -/
theorem test_ackReceived_overflows_reports :
    let s := { sending with reports := List.replicate 31 ⟨5, .E, .lost, 2⟩ }
    (after (.ackReceived .W 1) s).reports.length = 32
    ∧ (after (.ackReceived .W 1) s).isPending .rpt = true
    ∧ (after (.ackReceived .W 1) s).isPending .rptOvf = true
    ∧ (after (.ackReceived .W 1) s).counter .reportLost = 1 := by decide +kernel
theorem test_replayReceived :
    (after (.replayReceived .W 2) sending).laneW.pointer = some 2 := by decide +kernel
theorem test_holdReceived :
    (after (.holdReceived .W .standard 100) sending).laneW.partnerTimer = .load 100
    ∧ (after (.holdReceived .W .standard 100) sending).laneW.replayTimer = .paused (.load 9) := by
  decide +kernel
theorem test_greetReceived :
    (after (.greetReceived .W greet7) (lanes seekUnit upUnit)).laneW.state = .agree
    ∧ (after (.greetReceived .W greet7) (lanes agreeUnit upUnit)).laneW.agreed = some .r16 := by
  decide +kernel
theorem test_lossOfSignal :
    (after (.lossOfSignal .W) sending).laneW.state = .seek
    ∧ (after (.lossOfSignal .W) sending).counter (.ofLane .W .laneFailures) = 1 := by decide +kernel
theorem test_startGraceEnd :
    (after (.startGraceEnd .W) (lanes { upUnit with grace := some (.load 3) } upUnit)).laneW.grace = none := by
  decide +kernel
theorem test_greetIntervalExpiry :
    (after (.greetIntervalExpiry .W) (lanes seekUnit upUnit)).laneW.pendGreet = true := by
  decide +kernel
theorem test_bringUpTimerExpiry :
    (after (.bringUpTimerExpiry .W) (lanes agreeUnit upUnit)).laneW.state = .seek
    ∧ (after (.bringUpTimerExpiry .W) (lanes agreeUnit upUnit)).laneW.lastFault = .timeout := by
  decide +kernel
theorem test_stopTimerExpiry :
    (after (.stopTimerExpiry .W)
      { sending with laneW := { sending.laneW with
          state := .stopping, stopTimer := some (.load 5) } }).laneW.state = .off := by decide +kernel
theorem test_ackDelayExpiry :
    (after (.ackDelayExpiry .W)
      (lanes { upUnit with expected := 4, ackTimer := some (.load 2) } upUnit)).laneW.pendAck = some 3 := by
  decide +kernel
theorem test_replayTimerExpiry :
    (after (.replayTimerExpiry .W) sending).laneW.pointer = some 0 := by decide +kernel
theorem test_renewTimerExpiry :
    (after (.renewTimerExpiry .W)
      (lanes { upUnit with ownHold := .holdAll, renewTimer := some (.load 1) } upUnit)).laneW.pendHold
      = some ⟨.all, 1024⟩ := by decide +kernel
theorem test_partnerHoldExpiry :
    (after (.partnerHoldExpiry .W) (lanes { upUnit with partnerTimer := .load 1 } upUnit)).evPend
      = 0x0100 := by decide +kernel
theorem test_startOpportunity_resends :
    (after (.startOpportunity .W) sending).laneW.unit = .parcel 1
    ∧ (after (.startOpportunity .W) sending).laneW.pointer = some 2 := by decide +kernel
theorem test_startOpportunity_order_of_words :
    (after (.startOpportunity .W)
      (lanes { upUnit with pendHold := some ⟨.all, 0⟩, pendAck := some 3 } upUnit)).laneW.unit
      = .word (.hold .all 0) := by decide +kernel
theorem test_unitEnd :
    (after (.unitEnd .W) (lanes { upUnit with unit := .word (.ack 3), pendReplay := some 4 }
      upUnit)).laneW.unit = .word (.replay 4) := by decide +kernel
theorem test_symbolAtOtherRate :
    (after (.symbolAtOtherRate .W)
      (lanes { upUnit with signalLost := true } upUnit)).laneW.signalLost = false := by decide +kernel
/-- The 256th tick at the base rate ends a beat; a tick at 16 Mbit/s is a bit time, four quarters. -/
theorem test_tick_ends_a_beat :
    (tick (lanes { seekUnit with greetTimer := some ⟨16, 255⟩ } LaneUnit.reset)).laneW.greetTimer
      = some ⟨15, 0⟩
    ∧ (tick (lanes { upUnit with ackTimer := some ⟨2, 100⟩ } LaneUnit.reset)).laneW.ackTimer
      = some ⟨2, 104⟩ := by decide +kernel
/-- The hold ends in the tick that ends its last beat, not before. -/
theorem test_tick_ends_the_partner_hold :
    (tick (lanes { upUnit with partnerTimer := ⟨1, 251⟩ } LaneUnit.reset)).laneW.partnerTimer = ⟨1, 255⟩
    ∧ (tick (lanes { upUnit with partnerTimer := ⟨1, 252⟩ } LaneUnit.reset)).laneW.partnerTimer
      = .load 0 := by decide +kernel
/-- A teardown to SEEK from 16 Mbit/s with a parcel on the line: the symbol on it and ABT go out at that
rate, and the GREET behind them at the base rate (R56). -/
theorem test_greet_after_teardown_at_base_rate :
    ((after (.startOpportunity .W) (after (.lossOfSignal .W) (lanes { upUnit with
        unit := .parcel 3, txq := atRate .r16 [.data 5, .data 6, .eop], symGone := 8 }
        upUnit))).laneW.txq.map (·.rate))
      = [.r16, .r16, .r4, .r4, .r4, .r4, .r4, .r4] := by decide +kernel
/-- A teardown to OFF inside an IDL symbol: the next IDL after LANE ENABLE is a whole one (R1). -/
theorem test_idl_after_enable_is_whole :
    (after (.laneEnable 0) (after (.laneAbort 0) (lanes { upUnit with symGone := 20 }
      upUnit))).laneW.symGone = 0 := by decide +kernel
/-- While RESET# is low the window reads 0 and takes no write (R171); its release ends pin reset. -/
theorem test_window_while_reset_is_low :
    sending.resetFalls.readRegister .free = 0
    ∧ (after (.registerWrite 0x34 99) sending.resetFalls).cfg.lallow = 256
    ∧ (after .pinReset sending.resetFalls).readRegister .free = 1024 := by decide +kernel
/-! ### Witnesses: the step, resets, the register window -/

theorem witness_StepTakesFrontCommandOrTime : State.reset.pending = [] := by decide
theorem witness_CommandsLeaveQueueAndHostSide :
    isLaneCommand (.unitEnd .W) = true ∧ isLaneCommand .pinReset = false := by decide
theorem witness_ResetsGiveRegisterMapValues : sending.resetLow = false := rfl
theorem witness_ResetsEndAllTraffic :
    Instr.pinReset = .pinReset ∧ sending.resetLow = false
    ∧ ∃ arg, Instr.softReset 0xFF = .softReset arg := ⟨rfl, rfl, _, rfl⟩
theorem resetFalls_holds (s : State) : s.resetFalls.HeldInReset := rfl
theorem witness_WindowAnswersZeroWhileResetLow :
    sending.resetFalls.HeldInReset ∧ sending.resetFalls.resetLow = true
    ∧ Instr.ddataRead ≠ .pinReset :=
  ⟨resetFalls_holds sending, rfl, Instr.noConfusion⟩
/-- Timers just loaded at all three rates, a symbol at its start, and IDL on a lane in UP and in OFF. -/
theorem witness_TimeCountsBeatsAndSymbols :
    upUnit.state ≠ .off ∧ LaneUnit.reset.state = .off
    ∧ ({ upUnit with ackTimer := some (.load 1) }.ackTimer = some (.load 1) ∧ upUnit.ackTimer = none)
    ∧ (upUnit.replayTimer = .stopped
      ∧ { upUnit with replayTimer := .running (.load 16) }.replayTimer = .running (.load 16)
      ∧ { upUnit with replayTimer := .paused (.load 16) }.replayTimer = .paused (.load 16))
    ∧ (upUnit.partnerTimer.left = 0 ∧ { upUnit with partnerTimer := .load 1 }.partnerTimer = .load 1)
    ∧ (upUnit.watches = true ∧ upUnit.quiet = .load 4
      ∧ { upUnit with signalLost := true }.watches = false)
    ∧ ({ upUnit with txq := [⟨.abt, .r4⟩] }.txq = ⟨.abt, .r4⟩ :: [] ∧ upUnit.symGone = 0)
    ∧ (LaneUnit.reset.txq = [] ∧ upUnit.txq = [])
    ∧ (Rate.r4.ticksPerBit = 4 ∧ Rate.r8.ticksPerBit = 2 ∧ upUnit.rate.ticksPerBit = 1) := by
  decide +kernel
/-- One tick with nothing due, one with the ACK delay alone due, one with two matters due, and one in which
a hold and an IDL symbol end together. -/
theorem witness_TickBringsAboutWhatIsDue :
    let aged (s : State) := (s.modLane .W LaneUnit.age).modLane .E LaneUnit.age
    let one := lanes { upUnit with ackTimer := some ⟨1, 252⟩ } LaneUnit.reset
    let two := lanes { upUnit with ackTimer := some ⟨1, 252⟩, grace := some ⟨1, 252⟩ } LaneUnit.reset
    let hold := lanes { upUnit with partnerTimer := ⟨1, 252⟩, symGone := 36, sendS := [3] } LaneUnit.reset
    State.reset.pending = [] ∧ (aged State.reset).dueNow = []
    ∧ one.pending = [] ∧ (aged one).dueNow = [(.W, .ackDelay)]
    ∧ two.pending = [] ∧ (aged two).dueNow = [(.W, .graceEnd), (.W, .ackDelay)]
    ∧ hold.pending = [] ∧ (aged hold).isDue .W .partnerEnd = true
    ∧ (aged hold).isDue .W .opportunity = false
    ∧ (aged hold).dueNow = [(.W, .opportunity), (.W, .partnerEnd)] := by decide +kernel
/-- A hold and an IDL symbol that end in one tick, in both orders (R114): the opportunity after the end of
the hold starts the parcel it barred, the one before it does not. -/
theorem test_hold_end_and_opportunity_in_both_orders :
    let s := (lanes { upUnit with partnerTimer := ⟨1, 256⟩, sendS := [3] } LaneUnit.reset).setRecord 3
      (posted 1)
    ([(Lane.W, TimedKind.partnerEnd), (.W, .opportunity)].foldl State.happenIfDue s).laneW.unit
      = .parcel 0
    ∧ ([(Lane.W, TimedKind.opportunity), (.W, .partnerEnd)].foldl State.happenIfDue s).laneW.unit
      = .none := by decide +kernel
theorem witness_WindowWritesActByOffsetAndCode :
    station5.resetLow = false
    ∧ (0x00#8) ∉ commandCodes ∧ (0xFF#8) ∉ commandCodes ∧ (0x02#8) ∈ ignoredOffsets
    ∧ (0x7E#8) ∈ ignoredOffsets := by decide
theorem witness_SharedSettingsLockedByBothLanes :
    station5.resetLow = false
    ∧ (∀ e ∈ sharedSettings, Within e.2.1 e.2.2 (BitVec.ofNat 16 e.2.1)
      ∧ Within e.2.1 e.2.2 (BitVec.ofNat 16 e.2.2)
      ∧ ¬Within e.2.1 e.2.2 (BitVec.ofNat 16 (e.2.2 + 1)))
    ∧ (station5.laneW.state = .off ∧ station5.laneE.state = .off)
    ∧ ¬((lanes LaneUnit.reset upUnit).laneW.state = .off
      ∧ (lanes LaneUnit.reset upUnit).laneE.state = .off) := by
  decide +kernel
/-- A CAP of 20 fits an intake of 20, one of 19 does not. -/
theorem witness_LaneSettingsLockedByTheirLane :
    station5.resetLow = false
    ∧ (∀ e ∈ laneSettings, Within e.2.2.1 e.2.2.2 (BitVec.ofNat 16 e.2.2.1)
      ∧ Within e.2.2.1 e.2.2.2 (BitVec.ofNat 16 e.2.2.2)
      ∧ ¬Within e.2.2.1 e.2.2.2 (BitVec.ofNat 16 (e.2.2.2 + 1)))
    ∧ ((lanes { LaneUnit.reset with intake := 20 } upUnit).lane .W).state = .off
    ∧ ((lanes LaneUnit.reset upUnit).lane .E).state ≠ .off
    ∧ ((lanes { LaneUnit.reset with intake := 20 } upUnit).lane .W).intake ≤ (20#16).toNat
    ∧ ¬((lanes { LaneUnit.reset with intake := 20 } upUnit).lane .W).intake ≤ (19#16).toNat := by
  decide +kernel
theorem witness_FreeSettingsWrittenInEveryState :
    station5.resetLow = false
    ∧ (∀ e ∈ freeSettings, Within e.2.1 e.2.2 (BitVec.ofNat 16 e.2.1)
      ∧ Within e.2.1 e.2.2 (BitVec.ofNat 16 e.2.2)
      ∧ ¬Within e.2.1 e.2.2 (BitVec.ofNat 16 (e.2.2 + 1)))
    ∧ { station5 with localCount := 9 }.localCount ≤ (9#16).toNat
    ∧ ¬{ station5 with localCount := 9 }.localCount ≤ (8#16).toNat
    ∧ (1 ≤ (loByte 0x8001#16).toNat ∧ (loByte 0x8001#16).toNat ≤ 128
      ∧ 1 ≤ (hiByte 0x8001#16).toNat ∧ (hiByte 0x8001#16).toNat ≤ 128)
    ∧ ¬1 ≤ (loByte 0x0100#16).toNat ∧ ¬(loByte 0x0181#16).toNat ≤ 128
    ∧ ¬1 ≤ (hiByte 0x0001#16).toNat ∧ ¬(hiByte 0x8101#16).toNat ≤ 128 := by
  decide +kernel
theorem witness_EventRegistersReadAndWritten :
    station5.resetLow = false
    ∧ (0x1FFF#16).extractLsb' 13 3 = 0 ∧ (0x2000#16).extractLsb' 13 3 ≠ 0 := by decide
theorem witness_CountersReadClearedAndSaturating :
    station5.resetLow = false ∧ (47#16).toNat ≤ 47 ∧ 47 < (48#16).toNat
    ∧ { station5 with counters := station5.counters.set 47 65535 }.counter .reportLost = 65535
    ∧ { station5 with counters := station5.counters.set 47 32767 }.counter .reportLost ≠ 65535 := by
  decide +kernel
/-- The ends of RTIDX; an RTENT value for each clause, at the ends of the ids; an id held elsewhere; the
selected entry empty and filled. -/
theorem witness_RouteTableWrittenAndCleared :
    station5.resetLow = false
    ∧ 31 < (32#16).toNat ∧ (31#16).toNat ≤ 31
    ∧ (0x0401#16).extractLsb' 10 6 ≠ 0 ∧ 240 ≤ (loByte 0x00F0#16).toNat
    ∧ (loByte 0x0301#16 ≠ 0 ∧ (0x0301#16).extractLsb' 8 2 = 3)
    ∧ (∃ (i : Fin 32) (e : RouteEntry), i ≠ station5.rtidx
        ∧ (station5.routes.set 3 (some ⟨9, .adopt⟩))[i] = some e ∧ e.station = loByte 0x0009#16)
    ∧ ((0x0300#16).extractLsb' 10 6 = 0 ∧ loByte 0x0300#16 = 0)
    ∧ ((0x01EF#16).extractLsb' 10 6 = 0 ∧ loByte 0x01EF#16 ≠ 0 ∧ (loByte 0x01EF#16).toNat ≤ 239
      ∧ ∀ i : Fin 32, station5.routes[i] = none)
    ∧ (0x0001#16 |>.extractLsb' 8 2).toNat = 0 ∧ (0x01EF#16 |>.extractLsb' 8 2).toNat = 1
    ∧ (0x0201#16 |>.extractLsb' 8 2).toNat = 2
    ∧ station5.routes[station5.rtidx] = none
    ∧ (station5.routes.set 0 (some ⟨9, .discard⟩))[station5.rtidx] = some ⟨9, .discard⟩ := by
  refine ⟨rfl, ?_, ?_, ?_, ?_, ?_, ⟨3, ⟨9, .adopt⟩, ?_⟩, ?_⟩ <;> decide +kernel

/-! ### Witnesses: delivery and sending -/

theorem witness_TakeDecidedInOrder :
    station5.resetLow = false
    ∧ 2 < (3#8).toNat
    ∧ ((2#8).toNat ≤ 2 ∧ { station5 with slot := some 0 }.slot ≠ none)
    ∧ (station5.slot = none ∧ station5.dqX = [] ∧ station5.dqS = [])
    ∧ ({ station5 with dqX := [4, 6] }.slot = none ∧ { station5 with dqX := [4, 6] }.dqX = 4 :: [6])
    ∧ ({ station5 with dqS := [4] }.slot = none ∧ { station5 with dqS := [4] }.dqS = 4 :: []
      ∧ { station5 with dqS := [4] }.dqX = []) := by decide +kernel
theorem witness_HeadViewShowsOpenRecord :
    station5.resetLow = false
    ∧ station5.slot = none
    ∧ { station5.setRecord 127 (received 512 1 []) with slot := some 127 }.slot = some 127
    ∧ ((station5.setRecord 127 (received 512 1 [])).record 127).arrival = some (.fromLane .W)
    ∧ ((station5.setRecord 127 (received 512 1 [])).record 127).length ≤ 512 := by decide +kernel

/-- A parcel of 3 bytes at its 1st, 2nd and 3rd read, and an empty one at its 1st. -/
theorem witness_ParcelReadWholeInOrder :
    station5.resetLow = false ∧ station5.slot = none
    ∧ { station5.setRecord 4 (received 3 1 [1]) with slot := some 4 }.slot = some 4
    ∧ { station5.setRecord 4 (received 3 1 [1]) with slot := some 4 }.readPos = 0
    ∧ { station5.setRecord 4 (received 3 1 [1]) with slot := some 4 }.readPast = false
    ∧ 0 + 2 ≤ ((station5.setRecord 4 (received 3 1 [1])).record 4).length
    ∧ 2 + 1 = ((station5.setRecord 4 (received 3 1 [1])).record 4).length
    ∧ 3 = ((station5.setRecord 4 (received 3 1 [1])).record 4).length
    ∧ 2 * 1 ≤ ((station5.setRecord 4 (received 3 1 [1])).record 4).length
    ∧ 2 * 2 = ((station5.setRecord 4 (received 3 1 [1])).record 4).length + 1
    ∧ ¬2 * 3 ≤ ((station5.setRecord 4 (received 3 1 [1])).record 4).length
    ∧ ¬2 * 1 ≤ ((station5.setRecord 4 (received 0 1 [])).record 4).length
    ∧ 2 * 1 ≠ ((station5.setRecord 4 (received 0 1 [])).record 4).length + 1 := by decide +kernel
/-- The three reads of those 3 bytes, and the read-past flag. -/
theorem test_parcel_of_three_bytes_is_read :
    let s := { station5.setRecord 4 (received 3 1 [1]) with
      slot := some 4, mem := [(64, 0xAA), (65, 0xBB), (66, 0xCC)] }
    (after .ddataRead s).busOut = 0xBBAA
    ∧ (after .ddataRead (after .ddataRead s)).busOut = 0x00CC
    ∧ (after .ddataRead (after .ddataRead (after .ddataRead s))).readPast = true := by decide +kernel
theorem witness_ReleaseDropsReference :
    station5.resetLow = false
    ∧ station5.slot = none
    ∧ 2 ≤ (received 3 2 [1]).refs
    ∧ ((received 0 1 []).refs = 1 ∧ (received 0 1 []).arrival = some (.fromLane .W)
      ∧ (received 0 1 []).chain = [] ∧ (received 0 1 []).chain.length ≤ LaneUnit.reset.intake)
    ∧ ((received 3 1 [1]).refs = 1 ∧ (received 3 1 [1]).chain ≠ []
      ∧ (received 3 1 [1]).chain.length ≤ { LaneUnit.reset with intake := 1 }.intake) := by decide
theorem witness_StatusRegistersShowTheirFields :
    station5.resetLow = false
    ∧ { LaneUnit.reset with intake := 1024 }.intake ≤ 1024 ∧ State.reset.freeList.length ≤ 1024
    ∧ State.reset.localCount ≤ 1024 ∧ State.reset.dqX.length ≤ 128 ∧ State.reset.dqS.length ≤ 128
    ∧ (State.reset.laneW.replay.length ≤ 32 ∧ State.reset.laneE.replay.length ≤ 32)
    ∧ State.reset.reports.length ≤ 32 ∧ State.reset.composeLen ≤ 512 := by decide +kernel
theorem witness_ComposeOpensAndIsAbandoned :
    (composing 2 [0]).resetLow = false
    ∧ (composing 2 [0]).composeOpen = true
    ∧ (station5.composeOpen = false
      ∧ ∀ h, ({ station5 with records := Vector.replicate 128 (posted 1) }.record h).isFree = false)
    ∧ (((station5.setRecord 0 (posted 1)).record 1).isFree = true
      ∧ ∀ k < (1 : Handle), ((station5.setRecord 0 (posted 1)).record k).isFree = false)
    ∧ ((composing 2 [0]).record (composing 2 [0]).composeHandle).arrival = some .ofHost := by
  decide +kernel
/-- Compose lengths 0, 2, 64 and 512; the pool full and empty. -/
theorem witness_SdataStoresTwoBytes :
    (composing 2 [0]).resetLow = false
    ∧ station5.composeOpen = false
    ∧ ((composing 2 [0]).composeOpen = true ∧ { composing 2 [0] with tooLong := true }.tooLong = true)
    ∧ ((composing 2 [0]).noCells = false ∧ (composing 2 [0]).tooLong = false
      ∧ (composing 2 [0]).composeLen % 2 = 0 ∧ (composing 2 [0]).mem.wf = true)
    ∧ (composing 512 []).composeLen = 512
    ∧ ((composing 64 [0]).composeLen < 512 ∧ (composing 64 [0]).composeLen % 64 = 0
      ∧ { composing 64 [0] with freeList := [] }.requestCell .ofHost .standard = none)
    ∧ ((composing 0 []).requestCell .ofHost .standard).isSome = true
    ∧ ((composing 2 [0]).composeLen < 512 ∧ (composing 2 [0]).composeLen % 64 ≠ 0
      ∧ ((composing 2 [0]).record (composing 2 [0]).composeHandle).chain.getLast? = some 0) := by
  decide +kernel
theorem witness_PostCheckedInOrderAndQueued :
    (composing 2 [0]).resetLow = false
    ∧ station5.composeOpen = false
    ∧ ((composing 2 [0]).composeOpen = true
      ∧ ({ composing 2 [0] with noCells := true }.noCells = true))
    ∧ ((composing 2 [0]).noCells = false ∧ (composing 2 [0]).tooLong = false
      ∧ { composing 2 [0] with sdest := 5 }.sdest.toNat
        = { composing 2 [0] with sdest := 5 }.cfg.station.toNat)
    ∧ ((composing 2 [0]).sdest ≠ 0
      ∧ (composing 2 [0]).sdest.toNat ≠ (composing 2 [0]).cfg.station.toNat
      ∧ (composing 2 [0]).sctl.getLsbD 5 = true)
    ∧ { (composing 2 [0]) with laneW := LaneUnit.reset }.laneW.state = .off
    ∧ ¬((composing 2 [0]).laneW.state = .off ∨ (composing 2 [0]).laneW.state = .stopping)
    ∧ ¬((composing 2 [0]).laneE.state = .off ∨ (composing 2 [0]).laneE.state = .stopping) := by
  decide +kernel
theorem witness_ReportsQueueAndAreRead :
    station5.resetLow = false
    ∧ station5.reports.length < 32
    ∧ 32 ≤ { station5 with reports := List.replicate 32 ⟨5, .E, .lost, 15⟩ }.reports.length
    ∧ station5.reports = []
    ∧ { station5 with reports := [⟨5, .E, .lost, 15⟩] }.reports = ⟨5, .E, .lost, 15⟩ :: []
    ∧ (⟨5, .E, .lost, 15⟩ : Report).resends ≤ 15 := by decide +kernel

/-! ### Witnesses: the pool and the formats -/

/-- Free counts 0, 1 and 33 against an express reserve of 32, and the caps at their ends. -/
theorem witness_CellRequestCheckedAndGranted :
    ¬(0 < { station5 with freeList := [] }.freeList.length)
    ∧ ¬(station5.cfg.xres.toNat < { station5 with freeList := [3] }.freeList.length
      ∨ TrafficClass.standard = .express)
    ∧ (0 < { station5 with freeList := [3] }.freeList.length
      ∧ (LaneUnit.reset.intake + 1 ≤ (station5.cfg.lane .W).cap.toNat))
    ∧ station5.cfg.xres.toNat < ((List.finRange 1024).take 33).length
    ∧ ¬({ LaneUnit.reset with intake := 384 }.intake + 1 ≤ (station5.cfg.lane .W).cap.toNat)
    ∧ { LaneUnit.reset with intake := 383 }.intake + 1 ≤ (station5.cfg.lane .W).cap.toNat
    ∧ ¬({ station5 with localCount := 256 }.localCount + 1 ≤ station5.cfg.lallow.toNat)
    ∧ { station5 with localCount := 255 }.localCount + 1 ≤ station5.cfg.lallow.toNat := by
  decide +kernel
/-- The marks of reset stand in order, and an intake of 320, 256 and 128 meets each in turn. -/
theorem witness_IntakeChangeMovesHoldAndOwedReplay :
    (Settings.reset.lane .W).hrel.toNat < (Settings.reset.lane .W).hall.toNat
    ∧ (upUnit.state = .up ∧ upUnit.holdUse = true ∧ upUnit.ownHold = .clear)
    ∧ (Settings.reset.lane .W).hall.toNat ≤ 320
    ∧ ((Settings.reset.lane .W).hstd.toNat ≤ 256 ∧ 256 < (Settings.reset.lane .W).hall.toNat)
    ∧ ({ upUnit with ownHold := .holdAll }.ownHold ≠ .clear
      ∧ 128 ≤ (Settings.reset.lane .W).hrel.toNat) := by decide +kernel
theorem witness_LinkWordsSurviveTheWire :
    ∀ v ∈ [1#8, 239#8], 1 ≤ { greet7 with station := v }.station.toNat
      ∧ { greet7 with station := v }.station.toNat ≤ 239
      ∧ 256 * (0#8).toNat + (63#8).toNat ≤ 63 ∧ 256 * (15#8).toNat + (255#8).toNat ≤ 4095 := by decide
theorem witness_HeadersSurviveTheWire : { head 63 255 with length := 1023 }.length < 1024 := by decide

/-! ### Witnesses: bring-up -/

theorem witness_LaneEnableStartsSeek :
    station5.resetLow = false
    ∧ 2 ≤ (2#8).toNat ∧ upUnit.state ≠ .off
    ∧ (State.reset.laneW.state = .off ∧ ¬1 ≤ State.reset.cfg.station.toNat)
    ∧ (station5.laneW.state = .off ∧ 1 ≤ station5.cfg.station.toNat ∧ station5.cfg.station.toNat ≤ 239
      ∧ (station5.cfg.lane .W).lcfg.getLsbD 0 = true
      ∧ (station5.cfg.lane .W).hrel.toNat < (station5.cfg.lane .W).hstd.toNat
      ∧ (station5.cfg.lane .W).hstd.toNat ≤ (station5.cfg.lane .W).hall.toNat
      ∧ (station5.cfg.lane .W).hall.toNat + 8 ≤ (station5.cfg.lane .W).cap.toNat
      ∧ station5.cfg.hrenew.toNat < station5.cfg.htime.toNat)
    ∧ station5.laneW.txq = [] := by decide +kernel
theorem witness_LaneStopAndAbortByState :
    sending.resetLow = false
    ∧ LaneUnit.reset.state = .off ∧ { upUnit with state := .stopping }.state = .stopping
    ∧ (sending.laneW.state = .up ∧ sending.laneW.replay ≠ [])
    ∧ (upUnit.state = .up ∧ upUnit.replay = [])
    ∧ seekUnit.state = .seek ∧ agreeUnit.state = .agree := by decide +kernel
/-- A lane with a parcel in progress, an acked entry before it, and an open assembly; and for each way to
a teardown a lane that takes it. -/
theorem witness_TeardownReportsAndReturnsInOrder :
    let u := { sending.laneW with
      unit := .parcel 1, replay := [{ entry 0 0 with acked := true }, entry 1 1], fwdX := [5]
      sendS := [6], asm := { whole (head 0 9) with record := some 7 } }
    sending.resetLow = false ∧ u.state ≠ .off
    ∧ (u.holders.Nodup ∧ ∀ h, u.asm.record = some h → h ∉ u.holders) ∧ sending.reports.length ≤ 32
    ∧ (seekUnit.state = .seek ∧ agreeUnit.state = .agree ∧ upUnit.state = .up ∧ upUnit.replay = [])
    ∧ ({ u with state := .stopping, stopTimer := some (.load 0) }.stopTimer ≠ none)
    ∧ (u.state = .up ∧ u.grace = none ∧ u.signalLost = false)
    ∧ (1 ≤ greet7.station.toNat ∧ greet7.station.toNat ≤ 239 ∧ ¬u.grace ≠ none)
    ∧ (upUnit.framing = .inParcel → upUnit.asm.isOpen = false)
    ∧ (sending.laneW.unit = .none ∧ sending.laneW.pendHold = none ∧ sending.laneW.pendReplay = none
      ∧ sending.laneW.pendAck = none
      ∧ sending.laneW.pointer = some { entry 1 1 with attempts := 4 }.seq
      ∧ { entry 1 1 with attempts := 4 }.attempts = sending.cfg.rlim.toNat
      ∧ ¬0 < sending.laneW.partnerTimer.left ∧ ∀ x ∈ [entry 0 0], x.seq ≠ (entry 1 1).seq) := by
  decide +kernel
/-- A lost lane to SEEK: the acked entry that leaves with the unit cut is DONE, the other LOST, the
forward entry counted, and the send queue kept; to OFF it is CANCELLED. -/
theorem test_teardown_reports_in_order :
    let s := ((lanes { sending.laneW with
      unit := .parcel 0, replay := [{ entry 0 0 with acked := true, onWire := true }, entry 1 1]
      fwdS := [5], sendS := [2] } upUnit).setRecord 0 (posted 1)).setRecord 1 (posted 1)
        |>.setRecord 2 (posted 1)
    (after (.lossOfSignal .W) s).reports.map (fun r => (r.handle, r.status)) = [(0, .done), (1, .lost)]
    ∧ (after (.lossOfSignal .W) s).counter (.ofLane .W .fwdFlushed) = 1
    ∧ (after (.lossOfSignal .W) s).laneW.sendS = [2]
    ∧ (after (.laneAbort 0) s).reports.map (fun r => (r.handle, r.status))
      = [(0, .done), (1, .lost), (2, .cancelled)] := by decide +kernel
/-- A GREET of station 0 and 240, of the own station, without a common rate, and a good one. -/
theorem witness_GreetInSeekJudged :
    (seekUnit.state = .seek ∧ seekUnit.asm.isOpen = false)
    ∧ ¬1 ≤ { greet7 with station := 0 }.station.toNat
    ∧ ¬{ greet7 with station := 240 }.station.toNat ≤ 239
    ∧ { greet7 with station := 5 }.station.toNat = station5.cfg.station.toNat
    ∧ { greet7 with rates := 0 }.rates &&& (station5.cfg.lane .W).lcfg.extractLsb' 0 3 = 0
    ∧ (1 ≤ greet7.station.toNat ∧ greet7.station.toNat ≤ 239
      ∧ greet7.station.toNat ≠ station5.cfg.station.toNat
      ∧ greet7.rates &&& (station5.cfg.lane .W).lcfg.extractLsb' 0 3 ≠ 0) := by decide +kernel
/-- Identical counts of 0, 1 and 2 after the GREET against a sent count of 2. -/
theorem witness_GreetInAgreeCountedOrUp :
    (agreeUnit.state = .agree ∧ agreeUnit.asm.isOpen = false)
    ∧ { greet7 with station := 5 }.station.toNat = station5.cfg.station.toNat
    ∧ { greet7 with rates := 0 }.rates &&& (station5.cfg.lane .W).lcfg.extractLsb' 0 3 = 0
    ∧ ¬(2 ≤ identicalAfter agreeUnit.identical agreeUnit.neighbour { greet7 with ack := false })
    ∧ ¬(2 ≤ identicalAfter agreeUnit.identical agreeUnit.neighbour { greet7 with rates := 1 })
    ∧ (2 ≤ identicalAfter agreeUnit.identical agreeUnit.neighbour greet7 ∧ 2 ≤ agreeUnit.sent
      ∧ agreeUnit.ownHold = .clear) := by decide +kernel
theorem witness_GreetInUpOrStoppingRestarts :
    upUnit.framing ≠ .inParcel ∧ upUnit.state = .up
    ∧ ({ upUnit with grace := some (.load 8) }.grace ≠ none ∧ greet7.ack = true
      ∧ upUnit.neighbour = some greet7)
    ∧ ¬(upUnit.grace ≠ none) ∧ { upUnit with state := .stopping }.state = .stopping := by
  decide +kernel
theorem witness_LossOfSignalByState :
    ¬({ upUnit with grace := some (.load 1) }.grace = none) ∧ ¬({ upUnit with signalLost := true }.signalLost = false)
    ∧ (seekUnit.state = .seek ∧ seekUnit.grace = none ∧ seekUnit.signalLost = false)
    ∧ (agreeUnit.state = .agree ∧ agreeUnit.grace = none ∧ agreeUnit.signalLost = false)
    ∧ (upUnit.state = .up ∧ upUnit.grace = none ∧ upUnit.signalLost = false)
    ∧ { upUnit with state := .stopping }.state = .stopping := by decide +kernel
theorem witness_BringUpTimersExpire :
    upUnit.greetTimer = none ∧ (seekUnit.greetTimer ≠ none ∧ seekUnit.state.greets = true)
    ∧ (seekUnit.bringTimer ≠ none ∧ seekUnit.state = .seek)
    ∧ (agreeUnit.bringTimer ≠ none ∧ agreeUnit.state = .agree) ∧ upUnit.bringTimer = none
    ∧ upUnit.stopTimer = none
    ∧ ({ upUnit with state := .stopping, stopTimer := some (.load 0) }.stopTimer ≠ none
      ∧ { upUnit with state := .stopping, stopTimer := some (.load 0) }.state = .stopping)
    ∧ upUnit.grace = none ∧ { upUnit with grace := some (.load 8) }.grace ≠ none := by decide +kernel

/-! ### Witnesses: framing and reception -/

theorem witness_SymbolsFramed :
    LaneUnit.reset.state = .off ∧ (upUnit.state ≠ .off ∧ upUnit.framing = .between)
    ∧ { upUnit with framing := .inWord [] }.framing = .inWord []
    ∧ ((seekUnit.state.carries = false) ∧ { seekUnit with framing := .inWord [1] }.framing = .inWord [1])
    ∧ [0x11#8, 0, 0].length < 4
    ∧ ([0x11#8, 0, 0, 1].length = 4 ∧ judgeWord ([0x11#8, 0, 0, 1] ++ [0]) = none)
    ∧ ({ seekUnit with framing := .inParcel }.framing = .inParcel ∧ seekUnit.asm.isOpen = false)
    ∧ (agreeUnit.state.greets = true ∧ ∀ bs, agreeUnit.framing ≠ .inWord bs)
    ∧ ((inParcel (whole (head 0 9))).framing = .inParcel
      ∧ (inParcel (whole (head 0 9))).asm.isOpen = true) := by
  refine ⟨?_, ?_, ?_, ?_, ?_, ?_, ?_, ⟨?_, fun bs h => by cases h⟩, ?_⟩ <;> decide +kernel
theorem witness_LinkWordSymbolsActAsTheWord :
    (∀ bs, upUnit.framing ≠ .inWord bs) ∧ 1 ≤ greet7.station.toNat ∧ greet7.station.toNat ≤ 239
    ∧ (seekUnit.state.greets = true ∧ seekUnit.asm.isOpen = false)
    ∧ LaneUnit.reset.state = .off := by
  refine ⟨fun bs h => ?_, ?_⟩
  · cases h
  · decide +kernel
theorem witness_SopOpensAssembly :
    upUnit.state = .up ∧ upUnit.framing = .between
    ∧ ({ upUnit with framing := .inWord [1] }.framing = .inWord [1]
      ∧ ¬{ upUnit with framing := .inWord [1] }.framing = .inParcel)
    ∧ ({ upUnit with framing := .inParcel }.framing = .inParcel
      ∧ { upUnit with framing := .inParcel }.asm.isOpen = false)
    ∧ (((station5.setRecord 0 (posted 1)).record 1).isFree = true
      ∧ ∀ k < (1 : Handle), ((station5.setRecord 0 (posted 1)).record k).isFree = false)
    ∧ ∀ h, ({ station5 with records := Vector.replicate 128 (posted 1) }.record h).isFree = false := by
  decide +kernel
/-- An SOP in the middle of a link word counts WORD_BAD and opens an assembly; one in a parcel begun in
AGREE opens one uncounted. -/
theorem test_sop_breaks_word_and_opens :
    (after (.sopReceived .W) (lanes { upUnit with framing := .inWord [1] } upUnit)).counter
      (.ofLane .W .wordBad) = 1
    ∧ (after (.sopReceived .W) (lanes { upUnit with framing := .inWord [1] } upUnit)).laneW.asm.isOpen
      = true
    ∧ (after (.sopReceived .W) (lanes { upUnit with framing := .inParcel } upUnit)).laneW.asm.record
      = some 0 := by decide +kernel
/-- Header holdings of 7 and 8 bytes, check holdings of 0 and 2, payload stored 0, 1 and 512. -/
theorem witness_DataBytesAssembled :
    (inParcel (whole (head 0 9))).state ≠ .off ∧ (inParcel (whole (head 0 9))).framing = .inParcel
    ∧ (whole (head 0 9)).isOpen = true
    ∧ { whole (head 0 9) with header := (head 0 9).encode.take 7 }.header.length < 8
    ∧ (8 ≤ (whole (head 0 9)).header.length ∧ { whole (head 0 9) with check := [] }.check.length < 2)
    ∧ { whole (head 0 9) with check := [1, 2] }.check = [1, 2]
    ∧ ({ whole (head 0 9) with stored := 512 }.limit ≤ 512)
    ∧ ((whole (head 0 9)).overrun = false ∧ 1 < (whole (head 0 9)).limit ∧ 1 % 64 ≠ 0
      ∧ { whole (head 0 9) with stored := 1, cells := [5] }.cells.getLast? = some 5)
    ∧ ((whole (head 0 9)).stored % 64 = 0
      ∧ ((receiving (head 0 9)).requestCell (.fromLane .W) .standard).isSome = true)
    ∧ ({ receiving (head 0 9) with freeList := [] }.requestCell (.fromLane .W) .standard = none
      ∧ (whole (head 0 9)).cells.length ≤ upUnit.intake) := by decide +kernel
theorem witness_AssemblyChecksTheWholeParcel :
    (inParcel { Assembly.start with isOpen := true, record := some 0 }).state ≠ .off
    ∧ (inParcel { Assembly.start with isOpen := true, record := some 0 }).framing = .inParcel
    ∧ (inParcel { Assembly.start with isOpen := true, record := some 0 }).asm
      = { Assembly.start with isOpen := true, record := some 0, overrun := (some (0 : Handle)).isNone } := by
  decide +kernel
theorem witness_DamagedParcelsDiscarded :
    (inParcel (whole (head 0 9))).state ≠ .off ∧ (inParcel (whole (head 0 9))).framing = .inParcel
    ∧ (whole (head 0 9)).isOpen = true
    ∧ (whole (head 0 9)).cells.length ≤ (inParcel (whole (head 0 9))).intake
    ∧ { whole (head 0 9) with byteCount := 9 }.checkGood = false := by decide +kernel
/-- Distances 1, 32, 33 and 63 from an expected sequence of 0, and 0 with the overrun mark. -/
theorem witness_UnacceptedParcelsBySequence :
    (whole (head 63 9)).checkGood = true
    ∧ ((0 : Seq) - (Header.decode (whole (head 63 9)).header).seq).toNat = 1
    ∧ ((0 : Seq) - (Header.decode (whole (head 32 9)).header).seq).toNat = 32
    ∧ ((0 : Seq) - (Header.decode (whole (head 31 9)).header).seq).toNat = 33
    ∧ ((0 : Seq) - (Header.decode (whole (head 1 9)).header).seq).toNat = 63
    ∧ (((0 : Seq) - (Header.decode (whole (head 0 9)).header).seq).toNat = 0
      ∧ { whole (head 0 9) with overrun := true, record := none }.overrun = true) := by decide +kernel
/-- A parcel of kind 2, one from the own station, and a good one, with 0 and 7 accepted before. -/
theorem witness_AcceptedParcelAcknowledgedAndTested :
    (whole (head 0 9)).checkGood = true
    ∧ (Header.decode (whole (head 0 9)).header).seq = upUnit.expected
    ∧ (whole (head 0 9)).overrun = false
    ∧ (Header.decode (whole { head 0 9 with kind := 2 }).header).kind ≠ 1
    ∧ (Header.decode (whole { head 0 9 with origin := 5 }).header).origin.toNat
      = station5.cfg.station.toNat
    ∧ (8 ≤ { upUnit with accSinceAck := 7 }.accSinceAck + 1 ∧ ¬8 ≤ upUnit.accSinceAck + 1)
    ∧ ((Header.decode (whole (head 0 9)).header).malformed ((whole (head 0 9)).byteCount - 10) = false
      ∧ (Header.decode (whole (head 0 9)).header).origin.toNat ≠ station5.cfg.station.toNat)
    ∧ (((after (.eopReceived .W) (receiving (head 0 5))).record 0).isFree = false
      ∧ ((after (.eopReceived .W) (receiving { head 0 9 with hop := 0 })).record 0).isFree = true) := by
  decide +kernel
/-- The destinations of R69, and a route table that is legal. -/
theorem witness_AcceptedParcelClassifiedAndHandedOver :
    ((receiving (head 0 9)).lane .W).asm.record = some 0
    ∧ (Header.decode (whole (head 0 9)).header).malformed ((whole (head 0 9)).byteCount - 10) = false
    ∧ (Header.decode (whole (head 0 9)).header).origin.toNat ≠ (receiving (head 0 9)).cfg.station.toNat
    ∧ (receiving (head 0 9)).LegalRoutes
    ∧ (∀ d ∈ [1#8, 5#8, 239#8, 240#8, 254#8, 255#8],
      (Header.decode (whole (head 0 d)).header).malformed 0 = false) := by
  have none32 : ∀ i : Fin 32, (receiving (head 0 9)).routes[i] = none := by decide +kernel
  refine ⟨?_, ?_, ?_, ⟨fun i e h => ?_, fun i _ e _ h _ _ => ?_⟩, ?_⟩
  · decide +kernel
  · decide +kernel
  · decide +kernel
  · rw [none32 i] at h
    cases h
  · rw [none32 i] at h
    cases h
  · decide +kernel

/-! ### Witnesses: acknowledgement, replay and holds -/

/-- A seq that names no entry, one that names the oldest and one that names the newest. -/
theorem witness_AckRemovesCoveredEntries :
    sending.laneW.state = .up ∧ sending.laneW.framing ≠ .inParcel
    ∧ (∀ e ∈ sending.laneW.replay, e.seq ≠ 3)
    ∧ sending.laneW.replay = [] ++ entry 0 0 :: [entry 1 1, entry 2 2]
    ∧ sending.laneW.replay = [entry 0 0, entry 1 1] ++ entry 2 2 :: []
    ∧ sending.reports.length ≤ 32 ∧ (sending.laneW.replay.map (·.handle)).Nodup
    ∧ { sending.laneW with state := .stopping }.state = .stopping
    ∧ sending.laneW.holders.Nodup ∧ sending.laneW.asm.record = none
    ∧ ([entry 0 0, entry 1 1, entry 2 2].map (fun x => { x with acked := true })).dropWhile
      (fun x => x.acked && !x.onWire) = [] := by decide +kernel
theorem witness_ReplayWordMatchedAgainstList :
    (sending.laneW.replay = entry 0 0 :: [entry 1 1, entry 2 2] ∧ (entry 0 0).acked = false)
    ∧ (sending.laneW.replay = [entry 0 0] ++ entry 1 1 :: entry 2 2 :: []
      ∧ (entry 1 1).seq = (entry 2 2).seq - 1 ∧ (entry 2 2).acked = false
      ∧ ∀ x ∈ [entry 0 0], x.seq ≠ 2 ∧ x.seq ≠ 2 - 1)
    ∧ ((3 : Seq) = sending.laneW.nextSeq ∧ ∀ e ∈ sending.laneW.replay, e.seq ≠ 3)
    ∧ (sending.laneW.replay = [entry 0 0, entry 1 1] ++ [entry 2 2] ∧ (entry 2 2).seq = 3 - 1)
    ∧ (upUnit.replay = [] ∧ (0 : Seq) = upUnit.nextSeq)
    ∧ { entry 0 0 with acked := true, onWire := true }.acked = true
    ∧ (∀ e ∈ sending.laneW.replay, e.seq ≠ 4) ∧ (4 : Seq) ≠ sending.laneW.nextSeq := by
  decide +kernel
theorem witness_HoldWordSetsPartnerHold :
    (upUnit.state = .up ∧ upUnit.framing ≠ .inParcel) ∧ { upUnit with holdUse := false }.holdUse = false
    ∧ upUnit.holdUse = true ∧ (1 : BitVec 12) ≠ 0 ∧ upUnit.partnerTimer.left = 0
    ∧ 0 < { upUnit with partnerTimer := .load 1 }.partnerTimer.left := by decide +kernel
theorem witness_TrafficTimersExpire :
    upUnit.ackTimer = none ∧ { upUnit with ackTimer := some (.load 0) }.ackTimer ≠ none
    ∧ (∀ n, upUnit.replayTimer ≠ .running n) ∧ sending.laneW.replayTimer = .running (.load 9)
    ∧ (upUnit.renewTimer = none ∧ upUnit.ownHold = .clear)
    ∧ ({ upUnit with renewTimer := some (.load 0), ownHold := .holdStd }.renewTimer ≠ none
      ∧ { upUnit with renewTimer := some (.load 0), ownHold := .holdStd }.ownHold = .holdStd)
    ∧ { upUnit with renewTimer := some (.load 0), ownHold := .holdAll }.ownHold = .holdAll
    ∧ upUnit.partnerTimer.left = 0 ∧ 0 < { upUnit with partnerTimer := .load 1 }.partnerTimer.left := by
  refine ⟨?_, ?_, fun n h => ?_, ?_⟩
  · decide
  · decide
  · cases h
  · decide +kernel

/-! ### Witnesses: sending -/

theorem witness_LinkWordsStartFirst :
    (LaneUnit.reset.state = .off ∧ { upUnit with unit := .word (.ack 0) }.unit ≠ .none)
    ∧ (seekUnit.unit = .none ∧ { seekUnit with pendGreet := true }.pendGreet = true
      ∧ seekUnit.pendGreet = false)
    ∧ (upUnit.unit = .none ∧ upUnit.state = .up
      ∧ { upUnit with pendHold := some ⟨.all, 1⟩ }.pendHold = some ⟨.all, 1⟩)
    ∧ (upUnit.pendHold = none ∧ { upUnit with pendReplay := some 63 }.pendReplay = some 63)
    ∧ (upUnit.pendReplay = none ∧ { upUnit with pendAck := some 0 }.pendAck = some 0) := by
  decide +kernel
/-- Attempts below and at RLIM (4), and the entry's class held and not held. -/
theorem witness_ResendOrReplayFailure :
    (sending.laneW.state = .up ∧ sending.laneW.unit = .none ∧ sending.laneW.pendHold = none
      ∧ sending.laneW.pendReplay = none ∧ sending.laneW.pendAck = none
      ∧ sending.laneW.pointer = some (entry 1 1).seq
      ∧ sending.laneW.replay = [entry 0 0] ++ entry 1 1 :: [entry 2 2]
      ∧ ∀ x ∈ [entry 0 0] ++ [entry 2 2], x.seq ≠ (entry 1 1).seq)
    ∧ ¬(0 < sending.laneW.partnerTimer.left)
    ∧ { entry 1 1 with attempts := 4 }.attempts = sending.cfg.rlim.toNat
    ∧ { entry 1 1 with attempts := 3 }.attempts ≠ sending.cfg.rlim.toNat
    ∧ (0 < { sending.laneW with partnerTimer := .load 1, state := .stopping }.partnerTimer.left
      ∧ (entry 1 1).cls = .standard
      ∧ { sending.laneW with partnerTimer := .load 1, state := .stopping }.state = .stopping) := by
  decide +kernel
/-- Replay lists of 31 and 32 entries, streaks below and at XRATIO (4), and the heads of R124. -/
theorem witness_FirstTransmissionOfChosenHead :
    (upUnit.unit = .none ∧ upUnit.pendHold = none ∧ upUnit.pendReplay = none ∧ upUnit.pendAck = none
      ∧ upUnit.pointer = none ∧ upUnit.state = .up)
    ∧ { upUnit with replay := List.replicate 32 (entry 0 0) }.replay.length = 32
    ∧ { upUnit with replay := List.replicate 31 (entry 0 0) }.replay.length < 32
    ∧ (upUnit.fwd .express = [] ∧ upUnit.send .express = [] ∧ upUnit.fwd .standard = []
      ∧ upUnit.send .standard = [])
    ∧ ({ upUnit with fwdS := [3] }.fwd .standard = 3 :: [] ∧ upUnit.send .standard = [])
    ∧ ({ upUnit with sendX := [3, 4], fwdX := [5], turnX := .forward }.send .express = 3 :: [4]
      ∧ { upUnit with sendX := [3, 4], fwdX := [5], turnX := .forward }.turn .express = .forward)
    ∧ (0 < station5.cfg.xratio.toNat
      ∧ station5.cfg.xratio.toNat ≤ { upUnit with streak := 4 }.streak
      ∧ ¬station5.cfg.xratio.toNat ≤ { upUnit with streak := 3 }.streak)
    ∧ (sending.laneW.pointer = some 1 ∧ 0 < { sending.laneW with partnerTimer := .load 1 }.partnerTimer.left
      ∧ (entry 1 1).cls = .standard ∧ entry 1 1 ∈ sending.laneW.replay
      ∧ ∀ x ∈ sending.laneW.replay, x.seq = 1 → x = entry 1 1) := by decide +kernel
theorem witness_ParcelSymbolsFollowTheRecord :
    (received 3 1 [1]).arrival = some (.fromLane .W) ∧ (posted 1).arrival = some .ofHost
    ∧ (received 3 1 [1]).chain[2 / 64]? = some 1 := by decide
theorem witness_UnitEndFreesTheLine :
    upUnit.unit = .none
    ∧ (({ upUnit with unit := .word (.ack 1) }.unit = .word (.ack 1))
      ∧ ∀ g, LinkWord.ack 1 = .greet g → g.ack = false)
    ∧ ({ agreeUnit with unit := .word (.greet greet7) }.unit = .word (.greet greet7)
      ∧ greet7.ack = true ∧ agreeUnit.state = .agree
      ∧ ¬(2 ≤ agreeUnit.identical ∧ 2 ≤ min (agreeUnit.sent + 1) 255))
    ∧ (2 ≤ { agreeUnit with identical := 2, sent := 1 }.identical
      ∧ 2 ≤ min ({ agreeUnit with identical := 2, sent := 1 }.sent + 1) 255
      ∧ agreeUnit.neighbour = some greet7 ∧ agreeUnit.ownHold = .clear)
    ∧ ({ sending.laneW with unit := .parcel 1 }.replay = [entry 0 0] ++ entry 1 1 :: [entry 2 2]
      ∧ (entry 1 1).seq = 1 ∧ (∀ x ∈ [entry 0 0] ++ [entry 2 2], x.seq ≠ 1)
      ∧ (entry 1 1).acked = false ∧ { entry 1 1 with acked := true }.acked = true
      ∧ sending.reports.length ≤ 32 ∧ (sending.laneW.replay.map (·.handle)).Nodup)
    ∧ ({ sending.laneW with unit := .parcel 1 }.holders.Nodup ∧ sending.laneW.asm.record = none)
    ∧ ([{ entry 0 0 with acked := true }].dropWhile fun x => x.acked && !x.onWire) = [] := by
  refine ⟨?_, ⟨?_, fun g h => by cases h⟩, ?_⟩ <;> decide +kernel

/-! ### Witnesses: the invariants, in a state with traffic -/

/-- Lane W in UP with one local parcel in its replay list and one received parcel waiting for the host;
Lane E OFF. -/
def busy : State :=
  { ((lanes { upUnit with
      replay := [entry 0 1], nextSeq := 1, replayTimer := .running (.load 9), intake := 1
      neighbour := some greet7 } LaneUnit.reset).setRecord 0 (received 10 1 [0])).setRecord 1 (posted 1) with
    freeList := (List.finRange 1024).drop 1, dqS := [0], mem := [(3, 0x55)] }

theorem witness_StepKeepsSettingsRoutesAndMemory :
    busy.LegalSettings ∧ busy.LegalRoutes ∧ busy.mem.wf = true := by
  have none32 : ∀ i : Fin 32, busy.routes[i] = none := by decide +kernel
  refine ⟨?_, ⟨fun i e h => ?_, fun i _ e _ h _ _ => ?_⟩, by decide +kernel⟩
  · constructor
    case lanes => intro l; cases l <;> constructor <;> decide +kernel
    all_goals decide +kernel
  · rw [none32 i] at h
    cases h
  · rw [none32 i] at h
    cases h

theorem witness_StepKeepsLanesConsistent : ∀ l, (busy.lane l).Consistent := by
  intro l
  cases l <;> constructor <;> decide +kernel

theorem witness_StepKeepsReplayListsSound : ∀ l, (busy.lane l).ReplaySound := by
  intro l
  cases l
  · constructor
    case consecutive => exact True.intro
    case newest => intro e h; cases h; decide
    case pointer => intro q h; cases h
    case running => intro n h; decide +kernel
    case paused => intro n h; cases h
    case ackedFirst => exact List.pairwise_singleton _ _
    all_goals decide +kernel
  · constructor
    case consecutive => exact True.intro
    case newest => intro e h; cases h
    case pointer => intro q h; cases h
    case running => intro n h; cases h
    case paused => intro n h; cases h
    case ackedFirst => exact List.Pairwise.nil
    all_goals decide +kernel

theorem witness_StepKeepsCountsInRange : busy.InRange := by
  constructor
  case lanes =>
    intro l
    cases l <;> constructor
    all_goals first | decide +kernel | (intro k h; cases h; done) | skip
    · intro n h; rcases h with h | h <;> cases h; decide
    · intro n h; rcases h with h | h <;> cases h
  case intake => intro l; cases l <;> decide +kernel
  all_goals decide +kernel

theorem witness_StepKeepsPoolSound : busy.PoolSound := by
  constructor
  case cells =>
    have e : busy.freeList ++ busy.usedCells = (List.finRange 1024).drop 1 ++ [0] := by decide +kernel
    have g : [0] ++ (List.finRange 1024).drop 1 = List.finRange 1024 := by decide +kernel
    have key : ∀ d all : List CellNo, [0] ++ d = all → (d ++ [0]).Perm all :=
      fun d all h => h ▸ List.perm_append_comm
    rw [e]
    exact key _ _ g
  case assembly => intro h l; revert h; cases l <;> decide +kernel
  case assembled => intro h l; revert h; cases l <;> decide +kernel
  case once => intro l; cases l <;> decide +kernel
  case intake => intro l; cases l <;> decide +kernel
  case bare => intro l; cases l <;> decide +kernel
  case closed => intro l; cases l <;> decide +kernel
  case overrun => intro l; cases l <;> decide +kernel
  case opened => intro l; cases l <;> decide +kernel
  case queued => intro k; cases k <;> decide +kernel
  case delivered =>
    intro h hh
    rw [show h = 0 from List.mem_singleton.1 hh]
    exact ⟨.W, rfl⟩
  case forwarded => intro l k; cases l <;> cases k <;> decide +kernel
  case posted => intro l k; cases l <;> cases k <;> decide +kernel
  case sent => intro l; cases l <;> decide +kernel
  all_goals decide +kernel

theorem witness_StepKeepsPayloadsWhole : busy.Whole := by
  constructor
  case held => decide +kernel
  case compose => decide +kernel
  case assembly => intro l h; cases l <;> cases h

end Sys2Proof.Tests
end

section
/-! SUPPORT. What travels on the line: the check words cancel, each field of a link word and of a header
stands in its place both ways, and a parcel's symbols follow its record. -/
namespace Sys2Proof.Machine

/-! ### Check words (R8, R11) -/

/-- A CRC register whose top bit stays clear is only shifted. -/
theorem foldl_crcShift_of_msb {w : Nat} (p r : BitVec w) (n : Nat)
    (h : ∀ i < n, (r <<< i).msb = false) :
    (List.range n).foldl (fun r _ => crcShift p r) r = r <<< n := by
  induction n with
  | zero => simp
  | succ n ih =>
    rw [List.range_succ, List.foldl_append, ih fun i hi => h i (Nat.lt_succ_of_lt hi)]
    simp [crcShift, h n (Nat.lt_succ_self n), BitVec.shiftLeft_add]

/-- The byte that equals the CRC-8 register clears it. -/
theorem crc8Byte_self (r : Byte) : crc8Byte r r = 0 := by
  unfold crc8Byte
  rw [BitVec.xor_self, foldl_crcShift_of_msb _ _ _ fun i _ => by simp]
  simp

theorem crc8_append_crc8 (bs : List Byte) : crc8 (bs ++ [crc8 bs]) = 0 := by
  have last : crc8 (bs ++ [crc8 bs]) = crc8Byte (crc8 bs) (crc8 bs) := List.foldl_append
  rw [last, crc8Byte_self]

/-- The high byte of the CRC-16 register leaves its low byte, moved up. -/
theorem crc16Byte_hiByte (c : Word) :
    crc16Byte c (hiByte c) = (loByte c).setWidth 16 <<< 8 := by
  have low : c ^^^ ((hiByte c).setWidth 16 <<< 8) = (loByte c).setWidth 16 := by
    ext i hi
    by_cases h8 : i < 8
    · simp [hiByte, loByte, h8, BitVec.getLsbD_eq_getElem hi]
    · have e : 8 + (i - 8) = i := by omega
      have lt : i - 8 < 8 := by omega
      simp [hiByte, loByte, h8, hi, e, lt]
  unfold crc16Byte
  rw [low, foldl_crcShift_of_msb]
  intro i hi
  have : 8 ≤ 15 - i := by omega
  simp [BitVec.msb_eq_getLsbD_last, BitVec.getLsbD_of_ge _ _ this]

/-- The byte that equals the upper half of the CRC-16 register clears it, the lower half being clear. -/
theorem crc16Byte_self_high (b : Byte) : crc16Byte (b.setWidth 16 <<< 8) b = 0 := by
  unfold crc16Byte
  rw [BitVec.xor_self, foldl_crcShift_of_msb _ _ _ fun i _ => by simp]
  simp

theorem crc16_append_crc16 (bs : List Byte) :
    crc16 (bs ++ [hiByte (crc16 bs), loByte (crc16 bs)]) = 0 := by
  have last : crc16 (bs ++ [hiByte (crc16 bs), loByte (crc16 bs)]) =
      crc16Byte (crc16Byte (crc16 bs) (hiByte (crc16 bs))) (loByte (crc16 bs)) := List.foldl_append
  rw [last, crc16Byte_hiByte, crc16Byte_self_high]

/-! ### Bytes of a word -/

/-- The bits before others count for their place. -/
theorem toNat_append_eq_add {m n : Nat} (x : BitVec m) (y : BitVec n) :
    (x ++ y).toNat = x.toNat * 2 ^ n + y.toNat := by
  rw [BitVec.toNat_append, ← Nat.shiftLeft_add_eq_or_of_lt y.isLt, Nat.shiftLeft_eq]

theorem toNat_wordOf (hi lo : Byte) : (wordOf hi lo).toNat = 256 * hi.toNat + lo.toNat := by
  rw [wordOf, toNat_append_eq_add]
  omega

theorem setWidth_wordOf (n : Nat) (hi lo : Byte) :
    (wordOf hi lo).setWidth n = BitVec.ofNat n (256 * hi.toNat + lo.toNat) := by
  rw [← toNat_wordOf, BitVec.ofNat_toNat]

theorem hiByte_eq_ofNat (w : Word) : hiByte w = BitVec.ofNat 8 (w.toNat / 256) := by
  apply BitVec.eq_of_toNat_eq
  simp [hiByte, BitVec.extractLsb'_toNat, Nat.shiftRight_eq_div_pow]

theorem loByte_eq_ofNat (w : Word) : loByte w = BitVec.ofNat 8 (w.toNat % 256) := by
  apply BitVec.eq_of_toNat_eq
  simp [loByte, BitVec.extractLsb'_toNat]

theorem wordOf_hiByte_loByte (w : Word) : wordOf (hiByte w) (loByte w) = w := by
  apply BitVec.eq_of_toNat_eq
  rw [toNat_wordOf, hiByte_eq_ofNat, loByte_eq_ofNat]
  simp only [BitVec.toNat_ofNat]
  omega

/-! ### Link words (R10, R12, R177) -/

theorem judgeWord_of_bad_check {k a hi lo c : Byte} (h : c ≠ crc8 [k, a, hi, lo]) :
    judgeWord [k, a, hi, lo, c] = none := if_pos h

theorem judgeWord_ack (a hi lo : Byte) :
    judgeWord [0x11, a, hi, lo, crc8 [0x11, a, hi, lo]] =
      if 256 * hi.toNat + lo.toNat ≤ 63 then
        some (.ack (BitVec.ofNat 6 (256 * hi.toNat + lo.toNat)))
      else none := by
  simp [judgeWord, toNat_wordOf, setWidth_wordOf]

theorem judgeWord_replay (a hi lo : Byte) :
    judgeWord [0x12, a, hi, lo, crc8 [0x12, a, hi, lo]] =
      if 256 * hi.toNat + lo.toNat ≤ 63 then
        some (.replay (BitVec.ofNat 6 (256 * hi.toNat + lo.toNat)))
      else none := by
  simp [judgeWord, toNat_wordOf, setWidth_wordOf]

theorem judgeWord_hold (a hi lo : Byte) :
    judgeWord [0x13, a, hi, lo, crc8 [0x13, a, hi, lo]] =
      if 256 * hi.toNat + lo.toNat ≤ 4095 then
        if a = 1 then some (.hold .all (BitVec.ofNat 12 (256 * hi.toNat + lo.toNat)))
        else if a = 2 then some (.hold .standard (BitVec.ofNat 12 (256 * hi.toNat + lo.toNat)))
        else none
      else none := by
  simp [judgeWord, toNat_wordOf, setWidth_wordOf]

theorem judgeWord_greet (a hi lo : Byte) :
    judgeWord [0x14, a, hi, lo, crc8 [0x14, a, hi, lo]] =
      if 1 ≤ hi.toNat ∧ hi.toNat ≤ 239 then
        some (.greet { ack := a.getLsbD 0, hold := a.getLsbD 1, station := hi
                       rates := BitVec.ofNat 3 (lo.toNat % 8) })
      else none := by
  have rates : lo.extractLsb' 0 3 = BitVec.ofNat 3 (lo.toNat % 8) := by
    apply BitVec.eq_of_toNat_eq
    simp
  simp [judgeWord, rates]

theorem judgeWord_of_unknown_kind {k a hi lo c : Byte} (h1 : k ≠ 0x11) (h2 : k ≠ 0x12)
    (h3 : k ≠ 0x13) (h4 : k ≠ 0x14) : judgeWord [k, a, hi, lo, c] = none := by
  unfold judgeWord
  simp only [if_neg h1, if_neg h2, if_neg h3, if_neg h4, ite_self]

/-- The bad link words are those of R12. -/
theorem judgeWord_eq_none_iff (k a hi lo c : Byte) :
    judgeWord [k, a, hi, lo, c] = none ↔
      c ≠ crc8 [k, a, hi, lo] ∨ (k ≠ 0x11 ∧ k ≠ 0x12 ∧ k ≠ 0x13 ∧ k ≠ 0x14)
      ∨ ((k = 0x11 ∨ k = 0x12) ∧ 63 < (wordOf hi lo).toNat)
      ∨ (k = 0x13 ∧ ((a ≠ 1 ∧ a ≠ 2) ∨ 4095 < (wordOf hi lo).toNat))
      ∨ (k = 0x14 ∧ ¬(1 ≤ hi.toNat ∧ hi.toNat ≤ 239)) := by
  rw [toNat_wordOf]
  by_cases hc : c = crc8 [k, a, hi, lo]
  case neg => exact iff_of_true (judgeWord_of_bad_check hc) (.inl hc)
  subst hc
  by_cases h1 : k = 0x11
  case pos =>
    rw [h1, judgeWord_ack]
    simp
  by_cases h2 : k = 0x12
  case pos =>
    rw [h2, judgeWord_replay]
    simp
  by_cases h3 : k = 0x13
  case pos =>
    rw [h3, judgeWord_hold]
    by_cases hv : 256 * hi.toNat + lo.toNat ≤ 4095
    · rw [if_pos hv]
      by_cases ha1 : a = 1
      · simp [ha1, hv]
      · by_cases ha2 : a = 2 <;> simp_all
    · simp [hv, Nat.lt_of_not_le hv]
  by_cases h4 : k = 0x14
  case pos =>
    rw [h4, judgeWord_greet]
    simp
  rw [judgeWord_of_unknown_kind h1 h2 h3 h4]
  exact iff_of_true rfl (.inr (.inl ⟨h1, h2, h3, h4⟩))

theorem LinkWord.body_ack (q : Seq) :
    (LinkWord.ack q).body = [0x11, 0, 0, BitVec.ofNat 8 q.toNat] := by
  rw [LinkWord.body, BitVec.ofNat_toNat]

theorem LinkWord.body_replay (q : Seq) :
    (LinkWord.replay q).body = [0x12, 0, 0, BitVec.ofNat 8 q.toNat] := by
  rw [LinkWord.body, BitVec.ofNat_toNat]

theorem LinkWord.body_hold (sc : HoldScope) (t : BitVec 12) :
    (LinkWord.hold sc t).body = [0x13, if sc = .all then 1 else 2,
      BitVec.ofNat 8 (t.toNat / 256), BitVec.ofNat 8 (t.toNat % 256)] := by
  have ht : t.toNat % 65536 = t.toNat := Nat.mod_eq_of_lt (by omega)
  cases sc <;> simp [LinkWord.body, hiByte_eq_ofNat, loByte_eq_ofNat, ht]

theorem LinkWord.body_greet (g : Greet) :
    (LinkWord.greet g).body = [0x14, BitVec.ofNat 8 (g.ack.toNat + 2 * g.hold.toNat), g.station,
      BitVec.ofNat 8 g.rates.toNat] := by
  obtain ⟨a, h, st, r⟩ := g
  cases a <;> cases h <;> simp [LinkWord.body]

theorem LinkWord.bytes_of_body {w : LinkWord} {k a hi lo : Byte} (h : w.body = [k, a, hi, lo]) :
    w.bytes = [k, a, hi, lo, crc8 [k, a, hi, lo]] := by
  rw [LinkWord.bytes, h]
  rfl

theorem LinkWord.length_bytes (w : LinkWord) : w.bytes.length = 5 := by cases w <;> rfl

/-- A link word comes back from its five bytes (R12). -/
theorem judgeWord_bytes (w : LinkWord)
    (hw : ∀ g, w = .greet g → 1 ≤ g.station.toNat ∧ g.station.toNat ≤ 239) :
    judgeWord w.bytes = some w := by
  cases w with
  | ack q =>
    have hq : q.toNat < 64 := q.isLt
    rw [LinkWord.bytes_of_body (LinkWord.body_ack q), judgeWord_ack]
    simp [show q.toNat % 256 = q.toNat by omega, show q.toNat ≤ 63 by omega]
  | replay q =>
    have hq : q.toNat < 64 := q.isLt
    rw [LinkWord.bytes_of_body (LinkWord.body_replay q), judgeWord_replay]
    simp [show q.toNat % 256 = q.toNat by omega, show q.toNat ≤ 63 by omega]
  | hold sc t =>
    have ht : t.toNat < 4096 := t.isLt
    have value : 256 * (t.toNat / 256 % 256) + t.toNat % 256 = t.toNat := by omega
    rw [LinkWord.bytes_of_body (LinkWord.body_hold sc t), judgeWord_hold]
    cases sc <;> simp [value, show t.toNat ≤ 4095 by omega]
  | greet g =>
    rw [LinkWord.bytes_of_body (LinkWord.body_greet g), judgeWord_greet, if_pos (hw g rfl)]
    obtain ⟨a, h, st, r⟩ := g
    have hr : r.toNat < 8 := r.isLt
    cases a <;> cases h <;> simp [show r.toNat % 256 % 8 = r.toNat by omega]

/-- Settles O26: each kind of word by its own equation, both ways; the check by cancelling the CRC's last
byte. -/
theorem linkWordsSurviveTheWire : Obligations.LinkWordsSurviveTheWire := by
  refine ⟨fun w => ⟨rfl, ?_, ?_⟩, fun a hi lo => ⟨fun h => ⟨?_, ?_⟩, fun h ha => ?_,
    fun h ha => ?_, fun h h' => ?_⟩,
    fun w hw => ⟨w.length_bytes, judgeWord_bytes w hw⟩, judgeWord_eq_none_iff, by decide +kernel,
    crc8_append_crc8⟩
  · cases w <;> rfl
  · cases w with
    | ack q => exact LinkWord.body_ack q
    | replay q => exact LinkWord.body_replay q
    | hold sc t =>
      cases sc
      · exact LinkWord.body_hold .all t
      · exact LinkWord.body_hold .standard t
    | greet g => exact LinkWord.body_greet g
  · exact (judgeWord_ack a hi lo).trans (if_pos h)
  · exact (judgeWord_replay a hi lo).trans (if_pos h)
  · exact (judgeWord_hold a hi lo).trans (by rw [if_pos h, if_pos ha])
  · subst ha
    exact (judgeWord_hold 2 hi lo).trans (by rw [if_pos h]; rfl)
  · exact (judgeWord_greet a hi lo).trans (if_pos ⟨h, h'⟩)

/-! ### Parcel headers (R6, R176) -/

theorem Header.encode_eq (h : Header) (hl : h.length < 1024) : h.encode =
    [h.kind, BitVec.ofNat 8 ((match h.cls with | .express => 64 | .standard => 0) + h.seq.toNat),
      h.dest, h.origin, BitVec.ofNat 8 (h.tag.toNat / 256), BitVec.ofNat 8 (h.tag.toNat % 256),
      BitVec.ofNat 8 (16 * h.hop.toNat + h.length / 256), BitVec.ofNat 8 (h.length % 256)] := by
  have second : (0#1 ++ BitVec.ofBool h.cls.bit ++ h.seq : BitVec 8) =
      BitVec.ofNat 8 ((match h.cls with | .express => 64 | .standard => 0) + h.seq.toNat) := by
    have hs : h.seq.toNat < 64 := h.seq.isLt
    apply BitVec.eq_of_toNat_eq
    rw [toNat_append_eq_add, toNat_append_eq_add, BitVec.toNat_ofNat]
    cases h.cls <;> simp [TrafficClass.bit] <;> omega
  have seventh : (h.hop ++ 0#2 ++ (BitVec.ofNat 10 h.length).extractLsb' 8 2 : BitVec 8) =
      BitVec.ofNat 8 (16 * h.hop.toNat + h.length / 256) := by
    apply BitVec.eq_of_toNat_eq
    rw [toNat_append_eq_add, toNat_append_eq_add, BitVec.toNat_ofNat, BitVec.extractLsb'_toNat,
      BitVec.toNat_ofNat, Nat.shiftRight_eq_div_pow, BitVec.toNat_ofNat]
    omega
  have eighth : (BitVec.ofNat 10 h.length).extractLsb' 0 8 = BitVec.ofNat 8 (h.length % 256) := by
    apply BitVec.eq_of_toNat_eq
    rw [BitVec.extractLsb'_toNat, BitVec.toNat_ofNat, BitVec.toNat_ofNat, Nat.shiftRight_zero]
    omega
  rw [Header.encode, second, seventh, eighth, hiByte_eq_ofNat, loByte_eq_ofNat]

theorem Header.decode_eq (b0 b1 b2 b3 b4 b5 b6 b7 : Byte) :
    Header.decode [b0, b1, b2, b3, b4, b5, b6, b7] =
    { kind := b0, cls := if b1.getLsbD 6 then .express else .standard
      seq := BitVec.ofNat 6 (b1.toNat % 64), dest := b2, origin := b3
      tag := BitVec.ofNat 16 (256 * b4.toNat + b5.toNat), hop := BitVec.ofNat 4 (b6.toNat / 16)
      length := 256 * (b6.toNat % 4) + b7.toNat } := by
  have seq : b1.extractLsb' 0 6 = BitVec.ofNat 6 (b1.toNat % 64) := by
    apply BitVec.eq_of_toNat_eq
    rw [BitVec.extractLsb'_toNat, BitVec.toNat_ofNat, Nat.shiftRight_zero]
    omega
  have tag : wordOf b4 b5 = BitVec.ofNat 16 (256 * b4.toNat + b5.toNat) := by
    rw [← toNat_wordOf, BitVec.ofNat_toNat, BitVec.setWidth_eq]
  have hop : b6.extractLsb' 4 4 = BitVec.ofNat 4 (b6.toNat / 16) := by
    apply BitVec.eq_of_toNat_eq
    rw [BitVec.extractLsb'_toNat, BitVec.toNat_ofNat, Nat.shiftRight_eq_div_pow]
  have length : (b6.extractLsb' 0 2 ++ b7 : BitVec 10).toNat = 256 * (b6.toNat % 4) + b7.toNat := by
    rw [toNat_append_eq_add, BitVec.extractLsb'_toNat, Nat.shiftRight_zero]
    omega
  simp [Header.decode, classOfBit, seq, tag, hop, length]

/-- A header comes back from its 8 bytes. -/
theorem Header.decode_encode (h : Header) (hl : h.length < 1024) : Header.decode h.encode = h := by
  rw [Header.encode_eq h hl, Header.decode_eq]
  obtain ⟨kind, cls, seq, dest, origin, tag, hop, length⟩ := h
  dsimp only at hl ⊢
  have hs : seq.toNat < 64 := seq.isLt
  have hh : hop.toNat < 16 := hop.isLt
  have ht : tag.toNat < 65536 := tag.isLt
  have tagBack : 256 * (tag.toNat / 256 % 2 ^ 8) + tag.toNat % 256 % 2 ^ 8 = tag.toNat := by omega
  have hopBack : (16 * hop.toNat + length / 256) % 2 ^ 8 / 16 = hop.toNat := by omega
  have lengthBack : 256 * ((16 * hop.toNat + length / 256) % 2 ^ 8 % 4) + length % 256 % 2 ^ 8 =
      length := by omega
  simp only [BitVec.toNat_ofNat, BitVec.getLsbD_ofNat, Nat.testBit_eq_decide_div_mod_eq, tagBack,
    hopBack, lengthBack]
  cases cls <;> simp [Nat.div_eq_of_lt hs, Nat.mod_eq_of_lt hs]

/-- Settles O27: each field by its place, both ways; the check word by cancelling the CRC's last two
bytes. -/
theorem headersSurviveTheWire : Obligations.HeadersSurviveTheWire :=
  ⟨Header.encode_eq, Header.decode_eq, fun h hl => ⟨rfl, Header.decode_encode h hl⟩,
    by decide +kernel, crc16_append_crc16⟩

/-! ### The symbols of a parcel (R1, R7, R20) -/

theorem Record.sentHop_fromLane {r : Record} {l : Lane} (h : r.arrival = some (.fromLane l)) :
    r.sentHop = r.hop - 1 := by rw [Record.sentHop, h]

theorem Record.sentHop_ofHost {r : Record} (h : r.arrival = some .ofHost) : r.sentHop = r.hop := by
  rw [Record.sentHop, h]

theorem State.payloadByte_of_chain {r : Record} {i : Nat} {c : CellNo} (s : State)
    (h : r.chain[i / 64]? = some c) : s.payloadByte r i = s.mem.read (64 * c.val + i % 64) := by
  rw [State.payloadByte, h]
  rfl

/-- Settles O52: the header built afresh differs by the arrival in its hop alone. -/
theorem parcelSymbolsFollowTheRecord : Obligations.ParcelSymbolsFollowTheRecord := by
  refine fun s h q => ⟨fun l arrival => ?_, fun arrival => ?_, fun i c => s.payloadByte_of_chain⟩
  · rw [← Record.sentHop_fromLane arrival]
    rfl
  · rw [← Record.sentHop_ofHost arrival]
    rfl

end Sys2Proof.Machine
end

section
/-! SUPPORT. Bring-up control: the answer of LANE ENABLE, GREET words judged in SEEK, loss of signal and the
timers of chapter 3. -/
namespace Sys2Proof.Machine

/-! ### Lane commands (R41, R42) -/

theorem laneOfArg_laneArg (l : Lane) : laneOfArg (laneArg l) = some l := by cases l <;> rfl

theorem laneOfArg_of_two_le {arg : Byte} (h : 2 ≤ arg.toNat) : laneOfArg arg = none := by
  have h0 : arg ≠ 0 := fun e => by subst e; exact absurd h (by decide)
  have h1 : arg ≠ 1 := fun e => by subst e; exact absurd h (by decide)
  rw [laneOfArg, if_neg h0, if_neg h1]

/-- The checks of LANE ENABLE are the comparisons of R42. -/
theorem Settings.laneFit_iff (c : Settings) (l : Lane) : c.laneFit l = true ↔
    1 ≤ c.station.toNat ∧ c.station.toNat ≤ 239 ∧ (c.lane l).lcfg.getLsbD 0 = true
      ∧ (c.lane l).hrel.toNat < (c.lane l).hstd.toNat
      ∧ (c.lane l).hstd.toNat ≤ (c.lane l).hall.toNat
      ∧ (c.lane l).hall.toNat + 8 ≤ (c.lane l).cap.toNat ∧ c.hrenew.toNat < c.htime.toNat := by
  simp only [Settings.laneFit, inRange, Bool.and_eq_true, decide_eq_true_eq, and_assoc]

/-- A lane command whose argument names no lane is refused (R173). -/
theorem exec_laneCommand_of_bad_arg {s : State} {arg : Byte} (hr : s.resetLow = false)
    (ha : 2 ≤ arg.toNat) {c : Instr} (hc : c ∈ [Instr.laneEnable arg, .laneStop arg, .laneAbort arg]) :
    exec c s = .next (s.refusedAs .refusedArg) := by
  have unnamed := laneOfArg_of_two_le ha
  simp only [List.mem_cons, List.not_mem_nil, or_false] at hc
  rcases hc with rfl | rfl | rfl
  · rw [exec, execLaneEnable, onWrite_of_high hr, State.cmdLaneEnable, unnamed, refuse_eq_refusedAs]
  · rw [exec, execLaneStop, onWrite_of_high hr, State.cmdLaneStop, unnamed, refuse_eq_refusedAs]
  · rw [exec, execLaneAbort, onWrite_of_high hr, State.cmdLaneAbort, unnamed, refuse_eq_refusedAs]

/-- LANE ENABLE of a lane, its argument being good (R41, R42). -/
theorem exec_laneEnable {s : State} (hr : s.resetLow = false) (l : Lane) :
    exec (.laneEnable (laneArg l)) s = .next (
      if (s.lane l).state ≠ .off then s.refusedAs .refusedState
      else if !s.cfg.laneFit l then s.refusedAs .refusedConfig
      else taken (raise (.lane l) (s.setLane l ((s.lane l).enable s.cfg)))) := by
  simp only [exec, execLaneEnable, onWrite_of_high hr, State.cmdLaneEnable, laneOfArg_laneArg]
  rfl

/-- Settles O28: a refusal by the argument, the state or the checks of R42, and otherwise the lane's unit
enabled. -/
theorem laneEnableStartsSeek : Obligations.LaneEnableStartsSeek := by
  refine ⟨fun s arg hr ha c hc => exec_laneCommand_of_bad_arg hr ha hc, fun s l hr => ?_⟩
  dsimp only
  rw [← Settings.laneFit_iff, exec_laneEnable hr]
  refine ⟨fun h => by rw [if_pos h], fun h fit => ?_, fun h fit => ⟨(s.lane l).enable s.cfg, ?_, ?_, ?_, ?_⟩⟩
  · have isOff : ¬(s.lane l).state ≠ .off := fun on => on h
    rw [if_neg isOff, if_pos (by simpa using fit)]
  · have isOff : ¬(s.lane l).state ≠ .off := fun on => on h
    rw [if_neg isOff, if_neg (by simpa using fit)]
    rfl
  · simp [LaneUnit.enable, LaneUnit.requestGreet]
  · rfl
  · intro hq
    simp [LaneUnit.enable, LaneUnit.requestGreet, LaneUnit.lineNow, LaneUnit.lineRate, hq,
      LaneUnit.rate, LaneState.carries]

/-! ### A lane's unit that has heard a symbol (R2, R4) -/

@[simp] theorem LaneUnit.heard_state (u : LaneUnit) : u.heard.state = u.state := rfl

@[simp] theorem LaneUnit.heard_asm (u : LaneUnit) : u.heard.asm = u.asm := rfl

@[simp] theorem LaneUnit.heard_framing (u : LaneUnit) : u.heard.framing = u.framing := rfl

@[simp] theorem LaneUnit.between_state (u : LaneUnit) : u.between.state = u.state := rfl

@[simp] theorem LaneUnit.between_asm (u : LaneUnit) : u.between.asm = u.asm := rfl

@[simp] theorem LaneUnit.between_framing (u : LaneUnit) : u.between.framing = .between := rfl

/-! ### Faults and states of bring-up (R44, R48, R50) -/

theorem recordFault_eq (s : State) (l : Lane) (f : BringFault) :
    s.recordFault l f = raise (.bring l)
      (bump (.ofLane l .bringupFaults) (s.setLane l { s.lane l with lastFault := f })) := rfl

theorem returnToSeek_eq (s : State) (l : Lane) :
    s.returnToSeek l = raise (.lane l) (s.setLane l { s.lane l with
      state := .seek, neighbour := none, identical := 0, sent := 0, pendGreet := true
      greetTimer := some (.load 16) }) := rfl

theorem greetInSeek_eq (s : State) (l : Lane) (g : Greet) :
    s.greetInSeek l g =
      if g.station.toNat = s.cfg.station.toNat then s.recordFault l .duplicate
      else if g.rates &&& (s.cfg.lane l).lcfg.extractLsb' 0 3 = 0 then s.recordFault l .mismatch
      else raise (.lane l) (s.setLane l { s.lane l with
        state := .agree, neighbour := some g, identical := if g.ack then 1 else 0, sent := 0
        pendGreet := true, greetTimer := some (.load 16) }) := by
  simp only [State.greetInSeek, Settings.ownGreet, beq_iff_eq, LaneSettings.sharesRate,
    LaneSettings.rateMask, Bool.not_eq_true', bne_eq_false_iff_eq]
  rfl

theorem takeGreet_of_seek {s : State} {l : Lane} (h : (s.lane l).state = .seek) (g : Greet) :
    s.takeGreet l g = s.greetInSeek l g := by rw [State.takeGreet, h]

theorem exec_greetReceived_of_valid {g : Greet} (h1 : 1 ≤ g.station.toNat)
    (h2 : g.station.toNat ≤ 239) (l : Lane) (s : State) :
    exec (.greetReceived l g) s = .next (s.onWord l (.greet g)) :=
  if_pos (by simp [inRange, h1, h2])

theorem exec_greetReceived_of_bad {g : Greet} (h : ¬(1 ≤ g.station.toNat ∧ g.station.toNat ≤ 239))
    (l : Lane) (s : State) : exec (.greetReceived l g) s =
      .next (s.onSymbol l fun s => bump (.ofLane l .wordBad) (s.closeForWord l)) :=
  if_neg (by simpa [inRange] using h)

/-- Settles O31: the word reaches bring-up control on a lane that is in SEEK and BETWEEN. -/
theorem greetInSeekJudged : Obligations.GreetInSeekJudged := by
  intro s l g
  dsimp only
  intro seek closed
  have hs : (s.lane l).state ≠ .off := by rw [seek]; decide
  have good (valid : 1 ≤ g.station.toNat ∧ g.station.toNat ≤ 239) :
      exec (.greetReceived l g) s =
        .next ((s.setLane l (s.lane l).between).greetInSeek l g) := by
    have : ((s.setLane l (s.lane l).between).lane l).state = .seek := by simpa using seek
    rw [exec_greetReceived_of_valid valid.1 valid.2, onWord_eq s l _ hs (.inl closed),
      State.takeWord, takeGreet_of_seek this]
  refine ⟨fun bad => ?_, fun valid own => ?_, fun valid other none => ?_,
    fun valid other common => ?_⟩
  · rw [exec_greetReceived_of_bad bad, onSymbol_eq s l _ hs, closeForWord_eq]
    · simp [LaneUnit.between]
    · exact .inl (by simpa using closed)
  · rw [good valid, greetInSeek_eq, if_pos (by simpa using own), recordFault_eq]
    simp
  · rw [good valid, greetInSeek_eq, if_neg (by simpa using other), if_pos (by simpa using none),
      recordFault_eq]
    simp
  · rw [good valid, greetInSeek_eq, if_neg (by simpa using other), if_neg (by simpa using common)]
    simp

/-! ### Loss of signal (R4, R48) -/

/-- A lane's unit as loss of signal finds it (R4). -/
def LaneUnit.lost (u : LaneUnit) : LaneUnit :=
  { u with signalLost := true, framing := .between, quiet := .load 0 }

theorem watches_iff (u : LaneUnit) :
    u.watches = true ↔ u.state ≠ .off ∧ u.grace = none ∧ u.signalLost = false := by
  simp [LaneUnit.watches, and_assoc]

theorem signalLoss_of_watches {s : State} {l : Lane} (h : (s.lane l).watches = true) :
    s.signalLoss l = (s.setLane l (s.lane l).lost).actOnLoss l := if_pos h

theorem signalLost_emptied (g : Target) (u : LaneUnit) : (u.emptied g).signalLost = u.signalLost := by
  obtain ⟨es, e⟩ := unitCut_eq (u.setAsm Assembly.start)
  unfold LaneUnit.emptied
  rw [e]
  cases g <;> rfl

/-- A teardown leaves the loss-of-signal timing alone (R54). -/
theorem signalLost_teardown (s : State) (l : Lane) (g : Target) :
    ((s.teardown l g).lane l).signalLost = (s.lane l).signalLost := by
  have mine : SameButIntake ((s.lane l).emptied g) ((s.emptiedLane l g).lane l) :=
    (phase_emptiedLane s l g).mine
  have e : ((s.emptiedLane l g).lane l).signalLost = (s.lane l).signalLost := by
    rw [mine]
    exact signalLost_emptied g _
  rw [teardown_eq, raise_lane, State.modLane_lane, ← e]
  split
  · rw [raise_lane]
    rfl
  · rfl

theorem signalLost_failLane (s : State) (l : Lane) :
    ((s.failLane l).lane l).signalLost = (s.lane l).signalLost := by
  unfold State.failLane
  dsimp only
  rw [signalLost_teardown]
  simp

/-- What a teardown finds of a lane's unit does not rest on what loss of signal changes there. -/
theorem TornUnit.of_lost {n : Nat} {g : Target} {u v : LaneUnit} (h : TornUnit n g u.lost v) :
    TornUnit n g u v := by
  cases g
  case seek => exact { h with }
  case off => exact { h with }

/-- A lane lost in the event of its loss of signal is lost as it stood before. -/
theorem lost_of_signalLoss {l : Lane} {g : Target} {s t : State}
    (h : Lost l g (s.setLane l (s.lane l).lost) t) : Lost l g s t where
  unit := by
    have := h.unit
    rw [State.setLane_lane, State.setLane_cfg] at this
    exact this.of_lost
  lane := h.lane
  held := by
    have := h.held
    rw [State.setLane_lane, State.isPending, State.isPending, State.setLane_evPend] at this
    exact this
  other := by simpa using h.other
  delivery := by simpa using h.delivery
  host := (Kept.setLane (C := survives_sameHost s) (.refl s) l _ : SameHost s _).trans h.host
  cells := by simpa using h.cells
  counters c hc := by simpa [State.counter] using h.counters c hc
  events x hx := by simpa [State.isPending] using h.events x hx
  failures := by
    have := h.failures
    rw [← setLane_bump] at this
    simpa [State.counter] using this
  bring := h.bring

/-- Settles O34: by the lane state, a loss from UP or STOPPING being a failure of the lane. -/
theorem lossOfSignalByState : Obligations.LossOfSignalByState := by
  intro s l
  dsimp only
  rw [← watches_iff]
  have go : exec (.lossOfSignal l) s = .next (s.signalLoss l) := rfl
  have failed (h : (s.lane l).watches = true)
      (hs : (s.lane l).state = .up ∨ (s.lane l).state = .stopping) :
      s.signalLoss l = (s.setLane l (s.lane l).lost).failLane l := by
    rw [signalLoss_of_watches h, State.actOnLoss]
    rcases hs with hs | hs <;> simp [LaneUnit.lost, hs]
  have loses := lost_failLane (s.setLane l (s.lane l).lost) l
  rw [State.setLane_lane] at loses
  have target : (s.lane l).lost.state = (s.lane l).state := rfl
  rw [target] at loses
  refine ⟨fun h => ?_, fun h seek => ?_, fun h agree => ?_, fun h up => ?_, fun h stopping => ?_⟩
  · rw [go, State.signalLoss, if_neg h]
  · rw [go, signalLoss_of_watches h, State.actOnLoss]
    simp [LaneUnit.lost, seek]
  · rw [go, signalLoss_of_watches h, State.actOnLoss]
    simp [LaneUnit.lost, agree, returnToSeek_eq]
  · rw [up] at loses
    refine ⟨_, go.trans (by rw [failed h (.inl up)]), lost_of_signalLoss loses, ?_⟩
    rw [signalLost_failLane, State.setLane_lane]
    rfl
  · rw [stopping] at loses
    exact ⟨_, go.trans (by rw [failed h (.inr stopping)]), lost_of_signalLoss loses⟩

/-! ### The timers of bring-up control (R4, R43, R49, R53) -/

theorem loadBringTimer_eq (s : State) (l : Lane) :
    s.loadBringTimer l = s.setLane l { s.lane l with
      bringTimer := some (.load (s.cfg.buplim.toNat * 256)) } := rfl

/-- Settles O35: each timer by whether it runs and by the lane state. -/
theorem bringUpTimersExpire : Obligations.BringUpTimersExpire := by
  intro s l
  dsimp only
  refine ⟨fun h => ?_, fun run greets => ?_, fun h => ?_, fun run seek => ?_, fun run agree => ?_,
    fun h => ?_, fun run stopping => ?_, fun h => ?_, fun run => ?_⟩
  · simp only [exec, execGreetIntervalExpiry, State.expireGreetInterval]
    rcases h with h | h <;> simp [h]
  · simp only [exec, execGreetIntervalExpiry, State.expireGreetInterval]
    simp [greets, Option.isSome_iff_ne_none.2 run, State.modLane, LaneUnit.requestGreet]
  · simp only [exec, execBringUpTimerExpiry, State.expireBringUp]
    rcases h with h | h
    · simp [h]
    · revert h
      cases (s.lane l).state <;> simp [LaneState.greets]
  · simp [exec, execBringUpTimerExpiry, State.expireBringUp, seek, Option.isSome_iff_ne_none.2 run,
      recordFault_eq, loadBringTimer_eq, setLane_raise, setLane_bump]
  · simp [exec, execBringUpTimerExpiry, State.expireBringUp, agree, Option.isSome_iff_ne_none.2 run,
      recordFault_eq, returnToSeek_eq, loadBringTimer_eq, setLane_raise, setLane_bump]
  · simp only [exec, execStopTimerExpiry, State.expireStop]
    rcases h with h | h <;> simp [h]
  · have := Option.isSome_iff_ne_none.2 run
    exact ⟨_, by simp only [exec, execStopTimerExpiry, State.expireStop, if_pos (And.intro stopping this)],
      stopped_teardown s l .off⟩
  · simp [exec, execStartGraceEnd, State.endGrace, h]
  · simp [exec, execStartGraceEnd, State.endGrace, Option.isSome_iff_ne_none.2 run, State.modLane]

end Sys2Proof.Machine
end

section
/-! SUPPORT. Framing and reception: what each symbol does in each framing state, what an SOP opens, and the
parcels that are not accepted. -/
namespace Sys2Proof.Machine

/-! ### What a symbol finds of the framing (R2, R3) -/

@[simp] theorem LaneUnit.heard_heard (u : LaneUnit) : u.heard.heard = u.heard := rfl

@[simp] theorem setFraming_setLane (s : State) (l : Lane) (u : LaneUnit) (f : Framing) :
    (s.setLane l u).setFraming l f = s.setLane l { u with framing := f } := by
  simp [State.setFraming, State.modLane]

@[simp] theorem setFraming_bump (c : Counter) (s : State) (l : Lane) (f : Framing) :
    (bump c s).setFraming l f = bump c (s.setFraming l f) := by
  simp [State.setFraming, State.modLane, setLane_bump]

theorem setFraming_self {s : State} {l : Lane} {f : Framing} (h : (s.lane l).framing = f) :
    s.setFraming l f = s := by
  subst h
  exact State.setLane_self s l

theorem breakUnit_of_between {s : State} {l : Lane} (h : (s.lane l).framing = .between) :
    s.breakUnit l = s := by rw [State.breakUnit, h]

theorem breakUnit_of_inWord {s : State} {l : Lane} {bs : List Byte}
    (h : (s.lane l).framing = .inWord bs) :
    s.breakUnit l = bump (.ofLane l .wordBad) (s.setFraming l .between) := by rw [State.breakUnit, h]

theorem breakUnit_of_ignored {s : State} {l : Lane} (h : (s.lane l).framing = .inParcel)
    (hc : (s.lane l).asm.isOpen = false) : s.breakUnit l = s.setFraming l .between := by
  rw [State.breakUnit, h]
  simp [State.setFraming, hc]

theorem breakUnit_of_open {s : State} {l : Lane} (h : (s.lane l).framing = .inParcel)
    (ho : (s.lane l).asm.isOpen = true) :
    s.breakUnit l = (s.setFraming l .between).badParcel l := by
  rw [State.breakUnit, h]
  simp [State.setFraming, ho]

theorem askReplay_eq (u : LaneUnit) : u.askReplay = u.replayAsked := by
  unfold LaneUnit.askReplay LaneUnit.replayAsked LaneUnit.requestReplay
  simp only [Bool.or_eq_true]

/-- A BAD parcel reaches nothing of its lane's unit but the assembly, what an intake change reaches, and
the request of a REPLAY. -/
theorem badParcel_lane (s : State) (l : Lane) :
    SameButIntake ((s.lane l).setAsm Assembly.start) ((s.badParcel l).lane l) := by
  have discarded := (phase_discardAssembly s l).mine
  refine discarded.trans ?_
  rw [State.badParcel, State.modLane_lane, bump_lane, askReplay_eq]
  unfold LaneUnit.replayAsked
  split <;> rfl

/-- A unit that is broken leaves the lane's state and its timing of the line as they are, and the framing
at BETWEEN. -/
theorem breakUnit_lane (s : State) (l : Lane) :
    ((s.breakUnit l).lane l).framing = .between ∧ ((s.breakUnit l).lane l).state = (s.lane l).state
      ∧ ((s.breakUnit l).lane l).quiet = (s.lane l).quiet
      ∧ ((s.breakUnit l).lane l).signalLost = (s.lane l).signalLost := by
  cases hf : (s.lane l).framing with
  | between =>
    rw [breakUnit_of_between hf]
    exact ⟨hf, rfl, rfl, rfl⟩
  | inWord bs =>
    rw [breakUnit_of_inWord hf]
    simp [State.setFraming]
  | inParcel =>
    cases ho : (s.lane l).asm.isOpen with
    | false =>
      rw [breakUnit_of_ignored hf ho]
      simp [State.setFraming]
    | true =>
      have h := badParcel_lane (s.setFraming l .between) l
      rw [breakUnit_of_open hf ho, h]
      simp [State.setFraming, LaneUnit.setAsm]

/-- A lane that has heard a symbol has heard it still once a unit is broken. -/
theorem breakUnit_heard {s : State} {l : Lane} (h : (s.lane l).heard = s.lane l) :
    ((s.breakUnit l).lane l).heard = (s.breakUnit l).lane l := by
  obtain ⟨-, -, quiet, lost⟩ := breakUnit_lane s l
  have hq : (s.lane l).quiet = .load 4 := by rw [← h]; rfl
  have hl : (s.lane l).signalLost = false := by rw [← h]; rfl
  rw [hq] at quiet
  rw [hl] at lost
  unfold LaneUnit.heard
  rw [← quiet, ← lost]

/-- A lane that carries traffic is not OFF; nor is one that greets. -/
theorem ne_off_of_carries {x : LaneState} (h : x.carries = true) : x ≠ .off := by
  rintro rfl
  exact Bool.noConfusion h

theorem ne_off_of_greets {x : LaneState} (h : x.greets = true) : x ≠ .off := by
  rintro rfl
  exact Bool.noConfusion h

theorem carries_of_greets {x : LaneState} (h : x.greets = true) : x.carries = false := by
  revert h
  cases x <;> decide

/-- A lane that is OFF takes no symbol (R4). -/
theorem exec_symbols_of_off {s : State} {l : Lane} (h : (s.lane l).state = .off) (b : Byte) :
    ∀ c ∈ [Instr.sopReceived l, .sowReceived l, .idlReceived l,
        .dataByteReceived l b, .eopReceived l, .abtReceived l, .symbolAtOtherRate l],
      exec c s = .next s := by
  simp only [List.mem_cons, List.not_mem_nil, or_false]
  rintro c (rfl | rfl | rfl | rfl | rfl | rfl | rfl) <;>
    exact congrArg Host.Outcome.next (onSymbol_off s l _ h)

section
variable {s : State} {l : Lane} (h : (s.lane l).state ≠ .off)
include h

theorem exec_sopReceived : exec (.sopReceived l) s = .next ((s.setLane l (s.lane l).heard).takeSop l) :=
  congrArg Host.Outcome.next (onSymbol_eq s l _ h)

theorem exec_sowReceived : exec (.sowReceived l) s = .next ((s.setLane l (s.lane l).heard).takeSow l) :=
  congrArg Host.Outcome.next (onSymbol_eq s l _ h)

theorem exec_idlReceived : exec (.idlReceived l) s = .next ((s.setLane l (s.lane l).heard).takeIdl l) :=
  congrArg Host.Outcome.next (onSymbol_eq s l _ h)

theorem exec_dataByteReceived (b : Byte) : exec (.dataByteReceived l b) s =
    .next ((s.setLane l (s.lane l).heard).takeData l b) :=
  congrArg Host.Outcome.next (onSymbol_eq s l _ h)

theorem exec_eopReceived : exec (.eopReceived l) s = .next ((s.setLane l (s.lane l).heard).takeEop l) :=
  congrArg Host.Outcome.next (onSymbol_eq s l _ h)

theorem exec_abtReceived : exec (.abtReceived l) s = .next ((s.setLane l (s.lane l).heard).takeAbt l) :=
  congrArg Host.Outcome.next (onSymbol_eq s l _ h)

theorem exec_symbolAtOtherRate :
    exec (.symbolAtOtherRate l) s = .next (s.setLane l (s.lane l).heard) :=
  congrArg Host.Outcome.next (onSymbol_eq s l _ h)

end

/-! ### The symbols in each framing state (R2 to R4, R16) -/

/-- With an open parcel broken by IDL, an SOP or an SOW finds the lane in BETWEEN (R3). -/
theorem breakUnit_then {s : State} {l : Lane} (h : (s.lane l).state ≠ .off)
    (f : State → State) (hf : ∀ t, f (t.breakUnit l) = f t)
    (c : Instr) (hc : ∀ t : State, (t.lane l).state ≠ .off →
      exec c t = .next (f (t.setLane l (t.lane l).heard))) :
    exec c s = exec c ((s.setLane l (s.lane l).heard).breakUnit l) := by
  have on : (((s.setLane l (s.lane l).heard).breakUnit l).lane l).state ≠ .off := by
    obtain ⟨-, state, -⟩ := breakUnit_lane (s.setLane l (s.lane l).heard) l
    rw [state]
    simpa using h
  rw [hc s h, hc _ on, breakUnit_heard (by simp), State.setLane_self, hf]

/-- Settles O36: each clause by the framing state that the symbol finds. -/
theorem symbolsFramed : Obligations.SymbolsFramed := by
  intro s l
  dsimp only
  refine ⟨fun off => exec_symbols_of_off off, fun on => exec_symbolAtOtherRate on, fun on hf => ?_,
    fun on bs hf => ?_, fun on hf closed => ?_, fun greets hf closed => ?_, fun on hf opened => ?_⟩
  · have broken := breakUnit_of_between (s := s.setLane l (s.lane l).heard) (l := l) (by simpa using hf)
    refine ⟨?_, fun b => ?_, ?_, ?_, ?_⟩
    · rw [exec_idlReceived on, State.takeIdl, broken]
    · simp [exec_dataByteReceived on, State.takeData, hf]
    · simp [exec_eopReceived on, State.takeEop, hf]
    · simp [exec_abtReceived on, State.takeAbt, hf]
    · rw [exec_sowReceived on, State.takeSow, broken, setFraming_setLane]
  · have broken := breakUnit_of_inWord (s := s.setLane l (s.lane l).heard) (l := l) (bs := bs)
      (by simpa using hf)
    refine ⟨?_, ?_, ?_, ?_, fun silent => ?_, fun b => ⟨fun hb => ?_, fun hb bad => ?_⟩⟩
    · rw [exec_idlReceived on, State.takeIdl, broken, setFraming_setLane]
    · simp [exec_eopReceived on, State.takeEop, hf, broken]
    · simp [exec_abtReceived on, State.takeAbt, hf, broken]
    · simp [exec_sowReceived on, State.takeSow, broken]
    · simp [exec_sopReceived on, State.takeSop, broken, silent]
    · simp [exec_dataByteReceived on, State.takeData, hf, hb]
    · simp [exec_dataByteReceived on, State.takeData, hf, hb, State.completeWord, bad]
  · have broken := breakUnit_of_ignored (s := s.setLane l (s.lane l).heard) (l := l)
      (by simpa using hf) (by simpa using closed)
    refine ⟨?_, ?_, ?_, ?_, fun b => ?_⟩
    · rw [exec_idlReceived on, State.takeIdl, broken, setFraming_setLane]
    · simp [exec_eopReceived on, State.takeEop, hf, closed]
    · simp [exec_abtReceived on, State.takeAbt, hf, closed]
    · simp [exec_sowReceived on, State.takeSow, broken]
    · simp [exec_dataByteReceived on, State.takeData, hf, closed]
  · have broken : ((s.setLane l (s.lane l).heard).breakUnit l).setFraming l .inParcel =
        s.setLane l { (s.lane l).heard with framing := .inParcel } := by
      cases hp : (s.lane l).framing with
      | between => rw [breakUnit_of_between (by simpa using hp), setFraming_setLane]
      | inWord bs => exact absurd hp (hf bs)
      | inParcel =>
        rw [breakUnit_of_ignored (by simpa using hp) (by simpa using closed)]
        simp
    rw [exec_sopReceived (ne_off_of_greets greets), State.takeSop, broken]
    simp [carries_of_greets greets]
  · obtain ⟨between, state, -⟩ := breakUnit_lane (s.setLane l (s.lane l).heard) l
    have twice (t : State) : (t.breakUnit l).breakUnit l = t.breakUnit l :=
      breakUnit_of_between (breakUnit_lane t l).1
    refine ⟨_, exec_idlReceived on, between, state.trans (by simp), ?_, ?_⟩
    · exact breakUnit_then on (·.takeSop l) (fun t => by rw [State.takeSop, State.takeSop, twice]) _
        fun t ht => exec_sopReceived ht
    · exact breakUnit_then on (·.takeSow l) (fun t => by rw [State.takeSow, State.takeSow, twice]) _
        fun t ht => exec_sowReceived ht

/-! ### An SOP that opens an assembly (R22, R60, R61) -/

theorem openAssembly_of_lowest {s : State} {l : Lane} {h : Handle} (hf : s.lowestFree = some h) :
    s.openAssembly l = { s.setLane l { s.lane l with
        asm := { Assembly.start with isOpen := true, record := some h } } with
      records := s.records.set h
        { Record.cleared with arrival := some (.fromLane l), assembly := some l } } := by
  rw [State.openAssembly, hf]
  cases l <;> rfl

theorem openAssembly_of_none {s : State} {l : Lane} (hf : s.lowestFree = none) :
    s.openAssembly l = s.setLane l { s.lane l with
      asm := { Assembly.start with isOpen := true, overrun := true } } := by
  rw [State.openAssembly, hf]
  rfl

theorem lowestFree_congr {s t : State} (h : t.records = s.records) : t.lowestFree = s.lowestFree := by
  unfold State.lowestFree State.record
  rw [h]

/-- An SOP on a lane that carries traffic opens an assembly on `base`, in which what it breaks is closed. -/
theorem exec_sop_opens {s base : State} {l : Lane} (hc : (s.lane l).state.carries = true)
    (hr : base.records = s.records)
    (hb : ((s.setLane l (s.lane l).heard).breakUnit l).setFraming l .inParcel =
      base.setLane l { (s.lane l).heard with framing := .inParcel }) :
    (∀ h, (s.record h).isFree = true → (∀ k < h, (s.record k).isFree = false) →
      exec (.sopReceived l) s = .next { base.setLane l { (s.lane l).heard with
          framing := .inParcel, asm := { Assembly.start with isOpen := true, record := some h } } with
        records := s.records.set h
          { Record.cleared with arrival := some (.fromLane l), assembly := some l } })
    ∧ ((∀ h, (s.record h).isFree = false) → exec (.sopReceived l) s =
      .next (base.setLane l { (s.lane l).heard with
        framing := .inParcel, asm := { Assembly.start with isOpen := true, overrun := true } })) := by
  have go : exec (.sopReceived l) s =
      .next ((base.setLane l { (s.lane l).heard with framing := .inParcel }).openAssembly l) := by
    rw [exec_sopReceived (ne_off_of_carries hc), State.takeSop, hb]
    simp [hc]
  have free : (base.setLane l { (s.lane l).heard with framing := .inParcel }).lowestFree =
      s.lowestFree := lowestFree_congr (by rw [State.setLane_records, hr])
  refine ⟨fun h isFree least => ?_, fun none => ?_⟩
  · rw [go, openAssembly_of_lowest (free.trans (lowestFree_eq_some isFree least))]
    simp [hr]
  · rw [go, openAssembly_of_none (free.trans (lowestFree_eq_none none))]
    simp

/-- Settles O38: by the framing state, for the state in which what the SOP breaks is closed. -/
theorem sopOpensAssembly : Obligations.SopOpensAssembly := by
  intro s l
  dsimp only
  intro traffic closed
  have carries : (s.lane l).state.carries = true := by rcases traffic with h | h <;> rw [h] <;> rfl
  cases hf : (s.lane l).framing with
  | between =>
    refine exec_sop_opens (base := s) carries rfl ?_
    rw [breakUnit_of_between (by simpa using hf), setFraming_setLane]
  | inWord bs =>
    refine exec_sop_opens (base := bump (.ofLane l .wordBad) s) carries (bump_records _ _) ?_
    rw [breakUnit_of_inWord (bs := bs) (by simpa using hf)]
    simp [setLane_bump]
  | inParcel =>
    refine exec_sop_opens (base := s) carries rfl ?_
    rw [breakUnit_of_ignored (by simpa using hf) (by simpa using closed hf)]
    simp

/-! ### Parcels that are not accepted (R64, R65, R81 to R85) -/

/-- A parcel that is discarded, counted, and followed by a change of its lane's unit. -/
theorem bump_discardAssembly_modLane (s : State) (l : Lane) (c : Counter) (f : LaneUnit → LaneUnit)
    (hc : (s.lane l).asm.cells.length ≤ (s.lane l).intake) :
    (bump c (s.discardAssembly l)).modLane l f =
      bump c ((s.withoutAssembly l).setLane l (f ((s.withoutAssembly l).lane l))) := by
  rw [discardAssembly_eq s l hc, State.modLane, bump_lane, setLane_bump]

theorem badParcel_eq {s : State} {l : Lane}
    (hc : (s.lane l).asm.cells.length ≤ (s.lane l).intake) :
    s.badParcel l = bump (.ofLane l .rxBad)
      ((s.withoutAssembly l).setLane l ((s.withoutAssembly l).lane l).replayAsked) := by
  rw [State.badParcel, bump_discardAssembly_modLane s l _ _ hc, askReplay_eq]

theorem gapParcel_eq {s : State} {l : Lane}
    (hc : (s.lane l).asm.cells.length ≤ (s.lane l).intake) :
    s.gapParcel l = bump (.ofLane l .rxGap)
      ((s.withoutAssembly l).setLane l ((s.withoutAssembly l).lane l).replayAsked) := by
  rw [State.gapParcel, bump_discardAssembly_modLane s l _ _ hc, askReplay_eq]

theorem duplicateParcel_eq {s : State} {l : Lane}
    (hc : (s.lane l).asm.cells.length ≤ (s.lane l).intake) :
    s.duplicateParcel l = bump (.ofLane l .rxDup)
      ((s.withoutAssembly l).setLane l ((s.withoutAssembly l).lane l).ackAsked) :=
  bump_discardAssembly_modLane s l _ _ hc

theorem overrunParcel_eq {s : State} {l : Lane}
    (hc : (s.lane l).asm.cells.length ≤ (s.lane l).intake) :
    s.overrunParcel l = bump (.ofLane l .rxOverrun)
      ((s.withoutAssembly l).setLane l { (s.withoutAssembly l).lane l with replayOwed := true }) :=
  bump_discardAssembly_modLane s l _ _ hc

theorem abandonAssembly_eq {s : State} {l : Lane}
    (hc : (s.lane l).asm.cells.length ≤ (s.lane l).intake) :
    s.abandonAssembly l = bump (.ofLane l .rxAborted) (s.withoutAssembly l) := by
  rw [State.abandonAssembly, discardAssembly_eq s l hc]

section
variable {s : State} {l : Lane} (on : (s.lane l).state ≠ .off)
  (hf : (s.lane l).framing = .inParcel) (opened : (s.lane l).asm.isOpen = true)
include on hf opened

theorem exec_idl_of_open :
    exec (.idlReceived l) s = .next ((s.setLane l (s.lane l).between).badParcel l) := by
  rw [exec_idlReceived on, State.takeIdl, breakUnit_of_open (by simpa using hf) (by simpa using opened),
    setFraming_setLane]
  rfl

theorem exec_eop_of_open :
    exec (.eopReceived l) s = .next ((s.setLane l (s.lane l).between).closeAssembly l) := by
  simp [exec_eopReceived on, State.takeEop, hf, opened, LaneUnit.between]

theorem exec_abt_of_open :
    exec (.abtReceived l) s = .next ((s.setLane l (s.lane l).between).abandonAssembly l) := by
  simp [exec_abtReceived on, State.takeAbt, hf, opened, LaneUnit.between]

end

theorem closeAssembly_of_bad {s : State} {l : Lane} (h : (s.lane l).asm.checkGood = false) :
    s.closeAssembly l = s.badParcel l := by
  simp [State.closeAssembly, h]

/-- A distance of 1 to 32 is a duplicate (R81). -/
theorem sequenceTest_duplicate {e q : Seq} (h1 : 1 ≤ (e - q).toNat) (h2 : (e - q).toNat ≤ 32)
    (o : Bool) : sequenceTest e q o = .duplicate := by
  unfold sequenceTest seqDistance
  dsimp only
  rw [if_neg (by omega), if_pos h2]

/-- A distance of 33 to 63 is a gap (R81). -/
theorem sequenceTest_gap {e q : Seq} (h : 33 ≤ (e - q).toNat) (o : Bool) :
    sequenceTest e q o = .gap := by
  unfold sequenceTest seqDistance
  dsimp only
  rw [if_neg (by omega), if_neg (by omega)]

/-- The expected parcel with the overrun mark is an overrun (R81). -/
theorem sequenceTest_overrun {e q : Seq} (h : (e - q).toNat = 0) :
    sequenceTest e q true = .overrun := by
  unfold sequenceTest seqDistance
  dsimp only
  rw [if_pos h]
  rfl

/-- Settles O41: what closes the parcel finds it in BETWEEN, and its discard is the one of R24. -/
theorem damagedParcelsDiscarded : Obligations.DamagedParcelsDiscarded := by
  intro s l
  dsimp only
  intro on hf opened hc
  have counted : ((s.setLane l (s.lane l).between).lane l).asm.cells.length ≤
      ((s.setLane l (s.lane l).between).lane l).intake := by
    rw [State.setLane_lane]
    exact hc
  refine ⟨?_, fun bad => ?_, ?_⟩
  · rw [exec_idl_of_open on hf opened, badParcel_eq counted]
  · rw [exec_eop_of_open on hf opened, closeAssembly_of_bad (by simpa using bad), badParcel_eq counted]
  · rw [exec_abt_of_open on hf opened, abandonAssembly_eq counted]

/-- Settles O42: the outcome of the sequence test by the distance, and the discard each outcome makes. -/
theorem unacceptedParcelsBySequence : Obligations.UnacceptedParcelsBySequence := by
  intro s l
  dsimp only
  intro on hf opened good hc
  have counted : ((s.setLane l (s.lane l).between).lane l).asm.cells.length ≤
      ((s.setLane l (s.lane l).between).lane l).intake := by
    rw [State.setLane_lane]
    exact hc
  have expected : (s.lane l).between.expected = (s.lane l).expected := rfl
  refine ⟨fun h1 h2 => ?_, fun h => ?_, fun h overrun => ?_⟩
  · rw [exec_eop_of_open on hf opened, ← duplicateParcel_eq counted]
    simp [State.closeAssembly, good, expected, sequenceTest_duplicate h1 h2]
  · rw [exec_eop_of_open on hf opened, ← gapParcel_eq counted]
    simp [State.closeAssembly, good, expected, sequenceTest_gap h]
  · rw [exec_eop_of_open on hf opened, ← overrunParcel_eq counted]
    simp [State.closeAssembly, good, expected, overrun, sequenceTest_overrun h]

end Sys2Proof.Machine
end

section
/-! SUPPORT. Link words and parcels symbol by symbol: runs over a queue of commands, the six symbols of a link
word, and what an assembly holds of the bytes that followed its SOP. -/
namespace Sys2Proof.Machine

/-! ### Runs over a queue of commands -/

/-- The state with another queue of commands. -/
def State.queued (s : State) (cs : List Instr) : State := { s with pending := cs }

@[simp] theorem queued_lane (s : State) (cs : List Instr) (l : Lane) :
    (s.queued cs).lane l = s.lane l := by cases l <;> rfl

@[simp] theorem queued_queued (s : State) (cs ds : List Instr) :
    (s.queued cs).queued ds = s.queued ds := rfl

@[simp] theorem setLane_queued (s : State) (cs : List Instr) (l : Lane) (u : LaneUnit) :
    (s.queued cs).setLane l u = (s.setLane l u).queued cs := by cases l <;> rfl

@[simp] theorem modLane_queued (s : State) (cs : List Instr) (l : Lane) (f : LaneUnit → LaneUnit) :
    (s.queued cs).modLane l f = (s.modLane l f).queued cs := by cases l <;> rfl

@[simp] theorem setFraming_queued (s : State) (cs : List Instr) (l : Lane) (f : Framing) :
    (s.queued cs).setFraming l f = (s.setFraming l f).queued cs := modLane_queued _ _ _ _

@[simp] theorem setRecord_queued (s : State) (cs : List Instr) (h : Handle) (r : Record) :
    (s.queued cs).setRecord h r = (s.setRecord h r).queued cs := rfl

@[simp] theorem bump_queued (s : State) (cs : List Instr) (c : Counter) :
    bump c (s.queued cs) = (bump c s).queued cs := by
  rw [bump_eq, bump_eq]
  rfl

theorem setIntake_queued (s : State) (cs : List Instr) (l : Lane) (n : Nat) :
    (s.queued cs).setIntake l n = (s.setIntake l n).queued cs := by
  unfold State.setIntake
  rw [queued_lane, modLane_queued]
  split <;> rfl

theorem discardAssembly_queued (s : State) (cs : List Instr) (l : Lane) :
    (s.queued cs).discardAssembly l = (s.discardAssembly l).queued cs := by
  have returned (t : State) (ns : List CellNo) :
      (t.queued cs).returnCells (some (.fromLane l)) ns =
        (t.returnCells (some (.fromLane l)) ns).queued cs := by
    unfold State.returnCells
    rw [← setIntake_queued]
    cases l <;> rfl
  unfold State.discardAssembly State.returnAssembly
  dsimp only
  rw [queued_lane, modLane_queued]
  cases (s.lane l).asm.record with
  | none => exact returned _ _
  | some h => exact returned (State.setRecord _ h _) _

theorem breakUnit_queued (s : State) (cs : List Instr) (l : Lane) :
    (s.queued cs).breakUnit l = (s.breakUnit l).queued cs := by
  have bad (t : State) : (t.queued cs).badParcel l = (t.badParcel l).queued cs := by
    rw [State.badParcel, State.badParcel, discardAssembly_queued, bump_queued, modLane_queued]
  unfold State.breakUnit
  dsimp only
  rw [queued_lane]
  cases hf : (s.lane l).framing with
  | between => rfl
  | inParcel =>
    dsimp only
    rw [setFraming_queued, queued_lane, bad]
    split <;> rfl
  | inWord bs =>
    dsimp only
    rw [setFraming_queued, bump_queued]

theorem run_succ_of_next (M : Host.Core) (n : Nat) {s t : M.State} (h : M.step s = .next t) :
    M.run (n + 1) s = M.run n t := by rw [Host.Core.run, h]

/-- A run takes the command at the front of the queue first. -/
theorem run_queued_cons (n : Nat) (s t : State) (c : Instr) (cs : List Instr)
    (h : exec c (s.queued cs) = .next t) :
    Host.Core.run Sys2Proof.core (n + 1) (s.queued (c :: cs)) = Host.Core.run Sys2Proof.core n t :=
  run_succ_of_next Sys2Proof.core n h

/-- A lane in OFF takes a queue of symbols without effect (R4). -/
theorem run_of_ignored {s : State} : ∀ {cs : List Instr},
    (∀ c ∈ cs, ∀ ds, exec c (s.queued ds) = .next (s.queued ds)) →
    Host.Core.run Sys2Proof.core cs.length (s.queued cs) = .next (s.queued [])
  | [], _ => rfl
  | c :: cs, h => by
    rw [List.length_cons, run_queued_cons _ _ _ _ _ (h c List.mem_cons_self cs)]
    exact run_of_ignored fun d hd => h d (List.mem_cons_of_mem _ hd)

/-! ### The bytes of a link word (R2, R12) -/

theorem completeWord_bytes {s : State} {l : Lane} {w : LinkWord} (h : judgeWord w.bytes = some w) :
    s.completeWord l w.bytes = s.takeWord l w := by rw [State.completeWord, h]

/-- On a lane in a link word the bytes that are still to come complete it. -/
theorem run_wordBytes {l : Lane} : ∀ (ds bs : List Byte) (s : State),
    (s.lane l).state ≠ .off → (s.lane l).heard = s.lane l → (s.lane l).framing = .inWord bs →
    bs.length + ds.length = 5 → ds ≠ [] →
    Host.Core.run Sys2Proof.core ds.length (s.queued (ds.map (.dataByteReceived l))) =
      .next (((s.setFraming l .between).queued []).completeWord l (bs ++ ds))
  | [], _, _, _, _, _, _, h => absurd rfl h
  | [d], bs, s, on, heard, hf, hn, _ => by
    have hb : ¬bs.length < 4 := by simp at hn; omega
    have e : exec (.dataByteReceived l d) (s.queued []) =
        .next (((s.setFraming l .between).queued []).completeWord l (bs ++ [d])) := by
      rw [exec_dataByteReceived (by simpa using on)]
      simp [State.takeData, heard, hf, hb]
    exact run_queued_cons 0 s _ _ _ e
  | d :: e :: ds, bs, s, on, heard, hf, hn, _ => by
    have hb : bs.length < 4 := by simp at hn; omega
    have e1 : exec (.dataByteReceived l d) (s.queued ((e :: ds).map (.dataByteReceived l))) =
        .next ((s.setFraming l (.inWord (bs ++ [d]))).queued ((e :: ds).map (.dataByteReceived l))) := by
      rw [exec_dataByteReceived (by simpa using on)]
      simp [State.takeData, heard, hf, hb]
    have rest := run_wordBytes (l := l) (e :: ds) (bs ++ [d]) (s.setFraming l (.inWord (bs ++ [d])))
      (by simpa [State.setFraming] using on)
      (by
        rw [State.setFraming, State.modLane_lane]
        exact congrArg (fun u : LaneUnit => { u with framing := .inWord (bs ++ [d]) }) heard)
      (by simp [State.setFraming]) (by simp at hn ⊢; omega) (by simp)
    have e2 : (s.setFraming l (.inWord (bs ++ [d]))).setFraming l .between = s.setFraming l .between := by
      simp [State.setFraming]
    rw [e2, List.append_assoc] at rest
    exact (run_queued_cons _ s _ _ _ e1).trans rest

/-! ### A whole link word (R16; log 6) -/

/-- Outside a link word, a whole link word closes what its SOW breaks. -/
theorem closeForWord_eq_breakUnit {s : State} {l : Lane}
    (hf : ∀ bs, (s.lane l).framing ≠ .inWord bs) : s.closeForWord l = s.breakUnit l := by
  cases h : (s.lane l).framing with
  | between => rw [breakUnit_of_between h, State.closeForWord, h]
  | inParcel => rw [State.closeForWord, h]
  | inWord bs => exact absurd h (hf bs)

/-- On a lane that is not OFF and in no link word, the SOW and the five bytes of a word that comes back
from them hand it to its owner. -/
theorem run_wordSymbols {s : State} {l : Lane} {w : LinkWord} (hw : judgeWord w.bytes = some w)
    (on : (s.lane l).state ≠ .off) :
    Host.Core.run Sys2Proof.core 6
        (s.queued (.sowReceived l :: w.bytes.map (.dataByteReceived l))) =
      .next ((((s.setLane l (s.lane l).heard).breakUnit l).queued []).takeWord l w) := by
  obtain ⟨between, state, -⟩ := breakUnit_lane (s.setLane l (s.lane l).heard) l
  have heard := breakUnit_heard (s := s.setLane l (s.lane l).heard) (l := l) (by simp)
  generalize hB : (s.setLane l (s.lane l).heard).breakUnit l = B at between state heard
  have sow : exec (.sowReceived l) (s.queued (w.bytes.map (.dataByteReceived l))) =
      .next ((B.setFraming l (.inWord [])).queued (w.bytes.map (.dataByteReceived l))) := by
    rw [exec_sowReceived (by simpa using on), State.takeSow, queued_lane, setLane_queued,
      breakUnit_queued, hB, setFraming_queued]
  have bytes := run_wordBytes (l := l) w.bytes [] (B.setFraming l (.inWord []))
    (by simpa [State.setFraming, state] using on)
    (by
      rw [State.setFraming, State.modLane_lane]
      exact congrArg (fun u : LaneUnit => { u with framing := .inWord [] }) heard)
    (by simp [State.setFraming]) (by simp [w.length_bytes])
    (fun e => by simpa [e] using w.length_bytes)
  have closed : (B.setFraming l (.inWord [])).setFraming l .between = B := by
    rw [State.setFraming, State.setFraming, State.modLane_modLane]
    exact setFraming_self between
  rw [w.length_bytes, closed, List.nil_append, completeWord_bytes hw] at bytes
  exact (run_queued_cons 5 s _ _ _ sow).trans bytes

/-- The six symbols of a word have the effect of its command, on a lane in no link word. -/
theorem run_wordSymbols_eq_exec {s : State} {l : Lane} {w : LinkWord} {c : Instr}
    (hc : ∀ t, exec c t = .next (t.onWord l w)) (hw : judgeWord w.bytes = some w)
    (hf : ∀ bs, (s.lane l).framing ≠ .inWord bs) :
    Host.Core.run Sys2Proof.core 6
        (s.queued (.sowReceived l :: w.bytes.map (.dataByteReceived l))) =
      exec c (s.queued []) := by
  rw [hc]
  by_cases on : (s.lane l).state = .off
  · have ignored : (s.queued []).onWord l w = s.queued [] := onSymbol_off _ l _ (by simpa using on)
    have length : (Instr.sowReceived l :: w.bytes.map (.dataByteReceived l)).length = 6 := by
      simp [w.length_bytes]
    rw [ignored, ← length]
    refine run_of_ignored fun d hd ds => ?_
    have off : ((s.queued ds).lane l).state = .off := by simpa using on
    simp only [List.mem_cons, List.mem_map] at hd
    rcases hd with rfl | ⟨b, -, rfl⟩
    · exact exec_symbols_of_off off 0 _ (by simp)
    · exact exec_symbols_of_off off b _ (by simp)
  · have taken : (s.queued []).onWord l w =
        (((s.setLane l (s.lane l).heard).breakUnit l).queued []).takeWord l w := by
      rw [State.onWord, onSymbol_eq _ _ _ (by simpa using on), queued_lane, setLane_queued,
        closeForWord_eq_breakUnit (by simpa using hf), breakUnit_queued]
    rw [taken]
    exact run_wordSymbols hw on

/-- Settles O37: the SOW breaks what the word's command closes, and the five bytes bring the word back. -/
theorem linkWordSymbolsActAsTheWord : Obligations.LinkWordSymbolsActAsTheWord := by
  intro s l
  dsimp only
  refine ⟨fun hf q sc t => ?_, fun hf g h1 h2 => ?_, fun greets closed q sc t => ?_,
    fun off q sc t g => ?_⟩
  · simp only [List.mem_cons, List.not_mem_nil, or_false]
    rintro c (rfl | rfl | rfl)
    all_goals
      exact run_wordSymbols_eq_exec (fun _ => rfl) (judgeWord_bytes _ fun g e => by cases e) hf
  · simp only [List.mem_cons, List.not_mem_nil, or_false]
    rintro c rfl
    refine run_wordSymbols_eq_exec (exec_greetReceived_of_valid h1 h2 l) (judgeWord_bytes _ ?_) hf
    rintro g' e
    cases e
    exact ⟨h1, h2⟩
  · have discarded (w : LinkWord) (hw : ∀ g, w ≠ .greet g) :
        s.onWord l w = s.setLane l (s.lane l).between := by
      rw [onWord_eq s l w (ne_off_of_greets greets) (.inl closed)]
      cases w with
      | greet g => exact absurd rfl (hw g)
      | _ => simp [State.takeWord, carries_of_greets greets]
    simp only [List.mem_cons, List.not_mem_nil, or_false]
    rintro c (rfl | rfl | rfl)
    all_goals exact congrArg Host.Outcome.next (discarded _ (by simp))
  · have ignored (w : LinkWord) : s.onWord l w = s := onSymbol_off s l _ off
    simp only [List.mem_cons, List.not_mem_nil, or_false]
    rintro c (rfl | rfl | rfl | rfl)
    case inr.inr.inr =>
      by_cases valid : 1 ≤ g.station.toNat ∧ g.station.toNat ≤ 239
      · rw [exec_greetReceived_of_valid valid.1 valid.2, ignored]
      · rw [exec_greetReceived_of_bad valid, onSymbol_off s l _ off]
    all_goals exact congrArg Host.Outcome.next (ignored _)

/-! ### What an assembly holds (R60, R62, R63) -/

/-- What an open assembly holds of the bytes that followed its SOP, and its two running checks. -/
structure Assembly.Holds (bs : List Byte) (a : Assembly) : Prop where
  isOpen    : a.isOpen = true
  header    : a.header = bs.take 8
  byteCount : a.byteCount = min bs.length 1024
  crc       : a.crc = crc16 bs
  check     : a.check = bs.drop (8 + (bs.length - 10))
  before    : a.crcBeforeCheck = crc16 (bs.take (8 + (bs.length - 10)))

theorem crc16_snoc (bs : List Byte) (b : Byte) : crc16 (bs ++ [b]) = crc16Byte (crc16 bs) b :=
  List.foldl_append

theorem Assembly.holds_start (r : Option Handle) (o : Bool) :
    Assembly.Holds [] { Assembly.start with isOpen := true, record := r, overrun := o } where
  isOpen := rfl
  header := rfl
  byteCount := rfl
  crc := rfl
  check := rfl
  before := rfl

/-- What is stored, and where, is no part of what an assembly holds. -/
theorem Assembly.Holds.stores {bs : List Byte} {a : Assembly} (h : a.Holds bs) (r : Option Handle)
    (cs : List CellNo) (o : Bool) (n : Nat) :
    Assembly.Holds bs { a with record := r, cells := cs, overrun := o, stored := n } := { h with }

theorem Assembly.Holds.byteCount_snoc {bs : List Byte} {a : Assembly} (h : a.Holds bs) (b : Byte) :
    min (a.byteCount + 1) 1024 = min (bs ++ [b]).length 1024 := by
  rw [h.byteCount, List.length_append, List.length_singleton]
  omega

theorem Assembly.Holds.crc_snoc {bs : List Byte} {a : Assembly} (h : a.Holds bs) (b : Byte) :
    crc16Byte a.crc b = crc16 (bs ++ [b]) := by
  rw [h.crc, crc16_snoc]

theorem Assembly.Holds.headerByte {bs : List Byte} {a : Assembly} (h : a.Holds bs)
    (hn : bs.length < 8) (b : Byte) (n : Nat) :
    Assembly.Holds (bs ++ [b]) { a with
      byteCount := min (a.byteCount + 1) 1024, crc := crc16Byte a.crc b, header := a.header ++ [b]
      limit := n, crcBeforeCheck := crc16Byte a.crc b } := by
  have h8 : 8 + ((bs ++ [b]).length - 10) = 8 := by simp; omega
  have all : (bs ++ [b]).take 8 = bs ++ [b] := List.take_of_length_le (by simp; omega)
  constructor
  case isOpen => exact h.isOpen
  case header =>
    rw [all, h.header, List.take_of_length_le (by omega)]
  case byteCount => exact h.byteCount_snoc b
  case crc => exact h.crc_snoc b
  case check =>
    rw [h8, List.drop_of_length_le (by simp; omega), h.check, List.drop_of_length_le (by omega)]
  case before => rw [h8, all, h.crc, crc16_snoc]

theorem Assembly.Holds.checkByte {bs : List Byte} {a : Assembly} (h : a.Holds bs)
    (h8 : 8 ≤ bs.length) (h10 : bs.length < 10) (b : Byte) :
    Assembly.Holds (bs ++ [b]) { a with
      byteCount := min (a.byteCount + 1) 1024, crc := crc16Byte a.crc b, check := a.check ++ [b] } := by
  have old : 8 + (bs.length - 10) = 8 := by omega
  have new : 8 + ((bs ++ [b]).length - 10) = 8 := by simp; omega
  constructor
  case isOpen => exact h.isOpen
  case header => rw [h.header, List.take_append_of_le_length h8]
  case byteCount => exact h.byteCount_snoc b
  case crc => exact h.crc_snoc b
  case check => rw [new, h.check, old, List.drop_append_of_le_length h8]
  case before => rw [new, h.before, old, List.take_append_of_le_length h8]

theorem Assembly.Holds.payloadByte {bs : List Byte} {a : Assembly} (h : a.Holds bs)
    {x y : Byte} (hc : a.check = [x, y]) (b : Byte) :
    Assembly.Holds (bs ++ [b]) { a with
      byteCount := min (a.byteCount + 1) 1024, crc := crc16Byte a.crc b, check := [y, b]
      crcBeforeCheck := crc16Byte a.crcBeforeCheck x } := by
  have hcheck := h.check
  have hn : bs.length = 8 + (bs.length - 10) + 2 := by
    have := congrArg List.length (hc.symm.trans hcheck)
    simp at this
    omega
  obtain ⟨ds, hds⟩ : ∃ ds, ds = bs.take (8 + (bs.length - 10)) := ⟨_, rfl⟩
  have split : bs = ds ++ [x, y] := by rw [hds, ← hc, hcheck, List.take_append_drop]
  have len : 8 + (bs.length - 10) = ds.length := by rw [hds, List.length_take]; omega
  have new : 8 + ((bs ++ [b]).length - 10) = ds.length + 1 := by simp; omega
  have shape : bs ++ [b] = (ds ++ [x]) ++ [y, b] := by rw [split]; simp
  have lenx : ds.length + 1 = (ds ++ [x]).length := by simp
  constructor
  case isOpen => exact h.isOpen
  case header => rw [h.header, List.take_append_of_le_length (by omega)]
  case byteCount => exact h.byteCount_snoc b
  case crc => exact h.crc_snoc b
  case check => rw [new, shape, lenx, List.drop_left]
  case before => rw [new, shape, lenx, List.take_left, h.before, ← hds, crc16_snoc]

/-- The check of an assembly is good when that of the parcel is (R8, R65). -/
theorem Assembly.Holds.checkGood_iff {bs : List Byte} {a : Assembly} (h : a.Holds bs) :
    a.checkGood = true ↔ 10 ≤ bs.length
      ∧ crc16 (bs.take (bs.length - 2)) =
        wordOf (bs.getD (bs.length - 2) 0) (bs.getD (bs.length - 1) 0) := by
  unfold Assembly.checkGood
  rw [Bool.and_eq_true, decide_eq_true_eq, beq_iff_eq, h.byteCount, h.before, h.check]
  by_cases h10 : 10 ≤ bs.length
  · have e : 8 + (bs.length - 10) = bs.length - 2 := by omega
    have e1 : bs.length - 2 + 1 = bs.length - 1 := by omega
    have counted : 10 ≤ min bs.length 1024 := Nat.le_min.2 ⟨h10, by decide⟩
    have first : (bs.drop (bs.length - 2)).getD 0 0 = bs.getD (bs.length - 2) 0 := by
      rw [List.getD_eq_getElem?_getD, List.getElem?_drop, List.getD_eq_getElem?_getD, Nat.add_zero]
    have second : (bs.drop (bs.length - 2)).getD 1 0 = bs.getD (bs.length - 1) 0 := by
      rw [List.getD_eq_getElem?_getD, List.getElem?_drop, List.getD_eq_getElem?_getD, e1]
    rw [e, first, second]
    exact and_congr_left fun _ => iff_of_true counted h10
  · exact iff_of_false (fun k => h10 (by omega)) fun k => h10 k.1

/-! ### A lane that receives a parcel (R61 to R63) -/

/-- A lane inside a parcel whose open assembly holds some bytes. -/
structure LaneUnit.Receives (bs : List Byte) (u : LaneUnit) : Prop where
  on      : u.state ≠ .off
  framing : u.framing = .inParcel
  holds   : u.asm.Holds bs

theorem LaneUnit.Receives.ofSame {bs : List Byte} {u v : LaneUnit} (h : u.Receives bs)
    (e : SameButIntake u v) : v.Receives bs := by
  rw [e]
  exact { h with }

theorem LaneUnit.Receives.setAsm {bs cs : List Byte} {u : LaneUnit} (h : u.Receives bs)
    {a : Assembly} (ha : a.Holds cs) : (u.setAsm a).Receives cs where
  on := h.on
  framing := h.framing
  holds := ha

theorem LaneUnit.Receives.heard {bs : List Byte} {u : LaneUnit} (h : u.Receives bs) :
    u.heard.Receives bs := { h with }

theorem requestCell_lane {s t : State} {l : Lane} {c : TrafficClass} {n : CellNo}
    (h : s.requestCell (.fromLane l) c = some (n, t)) : SameButIntake (s.lane l) (t.lane l) := by
  have granted {r : State} (hr : r.lane l = s.lane l) (k : Nat) :
      SameButIntake (s.lane l) ((r.setIntake l k).lane l) := hr ▸ sameButIntake_setIntake r l l k
  unfold State.requestCell at h
  split at h
  · split at h
    · cases h
    · cases h
      refine granted ?_ _
      split
      · rw [raise_lane]
        cases l <;> rfl
      · cases l <;> rfl
  · cases h

theorem returnAssembly_lane (s : State) (l : Lane) (a : Assembly) :
    SameButIntake ((s.lane l).setAsm a) ((s.returnAssembly l a).lane l) := by
  have e : ∀ t : State, t.lane l = (s.lane l).setAsm a →
      SameButIntake ((s.lane l).setAsm a)
        ((t.returnCells (some (.fromLane l)) (s.lane l).asm.cells).lane l) :=
    fun t ht => ht ▸ sameButIntake_returnCells t _ _ l
  unfold State.returnAssembly
  dsimp only
  refine e _ ?_
  split
  · rw [State.setRecord_lane, State.modLane_lane]
  · rw [State.modLane_lane]

/-- However a byte is stored, the assembly holds what it held (R31, R63). -/
theorem storeByte_receives {s : State} {l : Lane} {bs : List Byte} (h : (s.lane l).Receives bs)
    (b : Byte) : ((s.storeByte l b).lane l).Receives bs := by
  unfold State.storeByte
  dsimp only
  split
  · exact h
  · split
    · split
      · rename_i asked
        rw [State.modLane_lane, State.writeCell_lane]
        exact (h.ofSame (requestCell_lane asked)).setAsm (h.holds.stores _ _ _ _)
      · exact (h.setAsm (h.holds.stores none [] true _)).ofSame (returnAssembly_lane s l _)
    · split
      · rw [State.modLane_lane, State.writeCell_lane]
        exact h.setAsm (h.holds.stores _ _ _ _)
      · rw [State.modLane_lane]
        exact h.setAsm (h.holds.stores _ _ _ _)

theorem exists_pair_of_length {bs : List Byte} (h : bs.length = 2) : ∃ x y, bs = [x, y] :=
  match bs, h with
  | [x, y], _ => ⟨x, y, rfl⟩

theorem assembleByte_receives {s : State} {l : Lane} {bs : List Byte} (h : (s.lane l).Receives bs)
    (b : Byte) : ((s.assembleByte l b).lane l).Receives (bs ++ [b]) := by
  have hh : (s.lane l).asm.header.length = min 8 bs.length := by
    rw [h.holds.header, List.length_take]
  have hc : (s.lane l).asm.check.length = bs.length - (8 + (bs.length - 10)) := by
    rw [h.holds.check, List.length_drop]
  unfold State.assembleByte
  dsimp only
  split
  · rw [State.modLane_lane]
    exact h.setAsm (h.holds.headerByte (by omega) b _)
  · split
    · rename_i x y pair
      refine storeByte_receives ?_ x
      rw [State.modLane_lane]
      exact h.setAsm (h.holds.payloadByte pair b)
    · rename_i notPair
      have short : bs.length < 10 := by
        refine Nat.lt_of_not_le fun h10 => ?_
        obtain ⟨x, y, pair⟩ := exists_pair_of_length (hc.trans (by omega))
        exact notPair x y pair
      rw [State.modLane_lane]
      exact h.setAsm (h.holds.checkByte (by omega) short b)

/-- A data byte joins what the assembly of its lane holds. -/
theorem exec_dataByte_receives {s : State} {l : Lane} {bs : List Byte} (h : (s.lane l).Receives bs)
    (b : Byte) : ∃ t, exec (.dataByteReceived l b) s = .next t ∧ (t.lane l).Receives (bs ++ [b])
      ∧ t.pending = s.pending := by
  have heard : ((s.setLane l (s.lane l).heard).lane l).Receives bs := by
    rw [State.setLane_lane]
    exact h.heard
  refine ⟨(s.setLane l (s.lane l).heard).assembleByte l b, ?_, assembleByte_receives heard b, ?_⟩
  · rw [exec_dataByteReceived h.on]
    simp [State.takeData, h.framing, h.holds.isOpen]
  · have host : SameHost s ((s.setLane l (s.lane l).heard).assembleByte l b) :=
      Kept.assembleByte (C := survives_sameHost s) (Kept.setLane (C := survives_sameHost s) (.refl s) l _)
        l b
    exact host.pending

/-- A run over data bytes leaves an assembly that holds them all. -/
theorem run_dataBytes {l : Lane} : ∀ (cs bs : List Byte) (s : State), (s.lane l).Receives bs →
    ∃ t, Host.Core.run Sys2Proof.core cs.length (s.queued (cs.map (.dataByteReceived l))) = .next t
      ∧ (t.lane l).Receives (bs ++ cs)
  | [], bs, s, h => ⟨s.queued [], rfl, by simpa using h⟩
  | c :: cs, bs, s, h => by
    obtain ⟨t, go, receives, pending⟩ :=
      exec_dataByte_receives (s := s.queued (cs.map (.dataByteReceived l))) (by simpa using h) c
    have same : t.queued (cs.map (.dataByteReceived l)) = t := by
      unfold State.queued
      rw [show cs.map (Instr.dataByteReceived l) = t.pending from pending.symm]
    obtain ⟨r, rest, all⟩ := run_dataBytes cs (bs ++ [c]) t receives
    rw [same] at rest
    refine ⟨r, (run_queued_cons _ s t _ _ go).trans rest, ?_⟩
    rwa [List.append_assoc] at all

/-- Settles O40: each byte joins what the assembly holds, by induction over the bytes. -/
theorem assemblyChecksTheWholeParcel : Obligations.AssemblyChecksTheWholeParcel := by
  intro s l r bs
  dsimp only
  intro on framing start
  have open0 : (s.lane l).Receives [] := ⟨on, framing, start ▸ Assembly.holds_start r r.isNone⟩
  obtain ⟨t, go, receives⟩ := run_dataBytes bs [] s open0
  have holds := receives.holds
  rw [List.nil_append] at holds
  refine ⟨t, go, receives.framing, holds.isOpen, holds.header, holds.byteCount, holds.crc, ?_,
    holds.checkGood_iff⟩
  rw [holds.check, List.drop_drop]

end Sys2Proof.Machine
end

section
/-! SUPPORT. Time: what many ticks do to the timers and the line of a lane, and which matters a tick brings
about. -/
namespace Sys2Proof.Machine

/-! ### One lane (R1, R5, R89, R96, R112) -/

/-- Time changes the timers of a lane and its line, and nothing else. -/
def LaneUnit.TimePassed (u v : LaneUnit) : Prop :=
  v = { u with
    greetTimer := v.greetTimer, bringTimer := v.bringTimer, stopTimer := v.stopTimer
    grace := v.grace, ackTimer := v.ackTimer, replayTimer := v.replayTimer
    renewTimer := v.renewTimer, partnerTimer := v.partnerTimer, quiet := v.quiet
    txq := v.txq, symGone := v.symGone }

theorem timePassed_age (u : LaneUnit) : u.TimePassed u.age := by
  obtain ⟨q, n, e⟩ := ageLine_eq u
  rw [LaneUnit.age, e, LaneUnit.ageTimers]
  split <;> rfl

theorem LaneUnit.TimePassed.trans {u v w : LaneUnit} (h : u.TimePassed v) (k : v.TimePassed w) :
    u.TimePassed w := by
  unfold LaneUnit.TimePassed at h k ⊢
  rw [h] at k
  exact k

theorem timePassed_repeat (u : LaneUnit) : ∀ k : Nat, u.TimePassed (Nat.repeat LaneUnit.age k u)
  | 0 => rfl
  | k + 1 => (timePassed_repeat u k).trans (timePassed_age _)

/-- Time changes the line of a lane, and nothing else. -/
def LaneUnit.LinePassed (u v : LaneUnit) : Prop := v = { u with txq := v.txq, symGone := v.symGone }

theorem LaneUnit.LinePassed.trans {u v w : LaneUnit} (h : u.LinePassed v) (k : v.LinePassed w) :
    u.LinePassed w := by
  unfold LaneUnit.LinePassed at h k ⊢
  rw [h] at k
  exact k

/-- In OFF time changes the line alone (R4). -/
theorem linePassed_age {u : LaneUnit} (h : u.state = .off) : u.LinePassed u.age := by
  obtain ⟨q, n, e⟩ := ageLine_eq u
  rw [LaneUnit.age, e, LaneUnit.ageTimers, if_pos h]
  rfl

theorem linePassed_repeat {u : LaneUnit} (h : u.state = .off) :
    ∀ k : Nat, u.LinePassed (Nat.repeat LaneUnit.age k u)
  | 0 => rfl
  | k + 1 => by
    have ih := linePassed_repeat h k
    have off : (Nat.repeat LaneUnit.age k u).state = .off := by rw [ih]; exact h
    exact ih.trans (linePassed_age off)

/-! ### The timers of a lane that is not OFF (R5, R89, R96, R112) -/

/-- A lane that is not OFF runs at a rate, and watches its line or does not: what time leaves alone. -/
def LaneUnit.OnAt (r : Rate) (w : Bool) (u : LaneUnit) : Prop :=
  u.state ≠ .off ∧ u.rate = r ∧ u.watches = w

theorem onAt_age {r : Rate} {w : Bool} {u : LaneUnit} (h : u.OnAt r w) : u.age.OnAt r w := by
  obtain ⟨on, rate, watches⟩ := h
  obtain ⟨state, rate', watches'⟩ := age_keeps u
  exact ⟨state ▸ on, rate'.trans rate, watches'.trans watches⟩

section
variable {u : LaneUnit} (on : u.state ≠ .off)
include on

theorem age_greetTimer : u.age.greetTimer = u.greetTimer.map (Countdown.count u.rate.quarters) := by
  obtain ⟨h, -⟩ := age_timers on
  exact h

theorem age_bringTimer : u.age.bringTimer = u.bringTimer.map (Countdown.count u.rate.quarters) := by
  obtain ⟨-, h, -⟩ := age_timers on
  exact h

theorem age_stopTimer : u.age.stopTimer = u.stopTimer.map (Countdown.count u.rate.quarters) := by
  obtain ⟨-, -, h, -⟩ := age_timers on
  exact h

theorem age_grace : u.age.grace = u.grace.map (Countdown.count u.rate.quarters) := by
  obtain ⟨-, -, -, h, -⟩ := age_timers on
  exact h

theorem age_ackTimer : u.age.ackTimer = u.ackTimer.map (Countdown.count u.rate.quarters) := by
  obtain ⟨-, -, -, -, h, -⟩ := age_timers on
  exact h

theorem age_replayTimer : u.age.replayTimer = u.replayTimer.count u.rate.quarters := by
  obtain ⟨-, -, -, -, -, h, -⟩ := age_timers on
  exact h

theorem age_renewTimer : u.age.renewTimer = u.renewTimer.map (Countdown.count u.rate.quarters) := by
  obtain ⟨-, -, -, -, -, -, h, -⟩ := age_timers on
  exact h

theorem age_partnerTimer : u.age.partnerTimer = u.partnerTimer.countHold u.rate.quarters := by
  obtain ⟨-, -, -, -, -, -, -, h, -⟩ := age_timers on
  exact h

theorem age_quiet :
    u.age.quiet = if u.watches then u.quiet.count u.rate.quarters else u.quiet := by
  obtain ⟨-, -, -, -, -, -, -, -, h⟩ := age_timers on
  exact h

end

/-- A part of a lane's unit that each tick changes by itself, while the lane is not OFF. -/
theorem repeat_age_of_on {α : Type} (f : LaneUnit → α) {g : α → α} {u : LaneUnit}
    (on : u.state ≠ .off)
    (h : ∀ v : LaneUnit, v.OnAt u.rate u.watches → f v.age = g (f v)) (k : Nat) :
    f (Nat.repeat LaneUnit.age k u) = Nat.repeat g k (f u) :=
  (repeat_age (LaneUnit.OnAt u.rate u.watches) (fun _ => onAt_age) f g h u ⟨on, rfl, rfl⟩ k).2

/-- An optional timer of a lane that is not OFF, some ticks later: none if it is stopped, and if just
loaded it has fallen by the beats that have gone. -/
theorem repeat_age_timer (f : LaneUnit → Option Countdown) {u : LaneUnit} (on : u.state ≠ .off)
    (h : ∀ v : LaneUnit, v.state ≠ .off → f v.age = (f v).map (Countdown.count v.rate.quarters))
    (k : Nat) :
    (f u = none → f (Nat.repeat LaneUnit.age k u) = none)
    ∧ ∀ n, f u = some (.load n) →
      (f (Nat.repeat LaneUnit.age k u)).map (·.left) = some (n - k / (64 * u.rate.ticksPerBit)) := by
  have counted : f (Nat.repeat LaneUnit.age k u) =
      (f u).map (Nat.repeat (Countdown.count u.rate.quarters) k) := by
    rw [repeat_age_of_on f (g := Option.map (Countdown.count u.rate.quarters)) on
      (fun v ⟨on, rate, _⟩ => rate ▸ h v on), repeat_map]
  rw [counted]
  refine ⟨fun stopped => by rw [stopped]; rfl, fun n loaded => ?_⟩
  rw [loaded, Option.map_some, Option.map_some,
    Countdown.count_repeat (Nat.le_trans u.rate.quarters_le (by decide)), Rate.beats_eq]

theorem repeat_age_replay {u : LaneUnit} (on : u.state ≠ .off) (k : Nat) :
    (Nat.repeat LaneUnit.age k u).replayTimer =
      Nat.repeat (ReplayTimer.count u.rate.quarters) k u.replayTimer :=
  repeat_age_of_on (·.replayTimer) on
    (fun _ ⟨on, rate, _⟩ => rate ▸ age_replayTimer on) k

theorem repeat_age_partner {u : LaneUnit} (on : u.state ≠ .off) (k : Nat) :
    (Nat.repeat LaneUnit.age k u).partnerTimer =
      Nat.repeat (Countdown.countHold u.rate.quarters) k u.partnerTimer :=
  repeat_age_of_on (·.partnerTimer) on
    (fun _ ⟨on, rate, _⟩ => rate ▸ age_partnerTimer on) k

/-- The ticks of some beats, counted in quarters. -/
theorem Rate.beats_le_iff (r : Rate) (n k : Nat) :
    n * 256 ≤ k * r.quarters ↔ n * (64 * r.ticksPerBit) ≤ k := by
  cases r <;> simp only [Rate.quarters, Rate.ticksPerBit] <;> omega

/-- A partner hold of n beats stands at its last beat until n beats have gone, and is due to end then
(R112). -/
theorem repeat_age_hold {u : LaneUnit} (on : u.state ≠ .off) {n : Nat} (hn : 0 < n)
    (loaded : u.partnerTimer = .load n) (k : Nat) :
    (Nat.repeat LaneUnit.age k u).partnerTimer.left = max 1 (n - k / (64 * u.rate.ticksPerBit))
    ∧ ((Nat.repeat LaneUnit.age k u).partnerTimer.left = 1
        ∧ 256 ≤ (Nat.repeat LaneUnit.age k u).partnerTimer.gone
        ↔ n * (64 * u.rate.ticksPerBit) ≤ k) := by
  rw [repeat_age_partner on, loaded,
    Countdown.countHold_repeat (Nat.le_trans u.rate.quarters_le (by decide)) hn,
    ← Rate.beats_eq, ← Rate.beats_le_iff]
  split
  · dsimp only
    omega
  · dsimp only
    omega

theorem repeat_age_quiet_watched {u : LaneUnit} (on : u.state ≠ .off) (watched : u.watches = true)
    (k : Nat) : (Nat.repeat LaneUnit.age k u).quiet =
      Nat.repeat (Countdown.count u.rate.quarters) k u.quiet := by
  refine repeat_age_of_on (·.quiet) on (fun v ⟨on, rate, watches⟩ => ?_) k
  rw [age_quiet on, watches, watched, rate, if_pos rfl]

theorem repeat_age_quiet_unwatched {u : LaneUnit} (on : u.state ≠ .off) (unwatched : u.watches = false)
    (k : Nat) : (Nat.repeat LaneUnit.age k u).quiet = u.quiet := by
  have same := repeat_age_of_on (·.quiet) (g := id) on (fun v ⟨on, _, watches⟩ => by
    rw [age_quiet on, watches, unwatched]
    rfl) k
  exact same.trans (repeat_fixed id u.quiet rfl k)

/-! ### The line (R1) -/

/-- A symbol on the line, one tick later: still there, or out. -/
theorem age_of_symbol {u : LaneUnit} {x : LineSymbol} {rest : List LineSymbol} (h : u.txq = x :: rest) :
    (u.symGone + x.rate.quarters < 40 →
      u.age.txq = x :: rest ∧ u.age.symGone = u.symGone + x.rate.quarters)
    ∧ (40 ≤ u.symGone + x.rate.quarters → u.age.txq = rest ∧ u.age.symGone = 0) := by
  have shown : u.lineNow ≠ .quiet := by
    rw [LaneUnit.lineNow, h]
    exact LineLevel.noConfusion
  have rate : u.lineRate = x.rate := by rw [LaneUnit.lineRate, h]
  obtain ⟨txq, symGone⟩ := age_line u
  rw [txq, symGone, LaneUnit.ageLine, if_neg shown, rate]
  refine ⟨fun inside => ?_, fun out => ?_⟩
  · rw [if_pos inside]
    exact ⟨h, rfl⟩
  · rw [if_neg (Nat.not_lt.2 out), h]
    exact ⟨rfl, rfl⟩

/-- A symbol that begins has some quarters gone while they are fewer than 40. -/
theorem repeat_age_of_symbol {u : LaneUnit} {x : LineSymbol} {rest : List LineSymbol}
    (h : u.txq = x :: rest) (h0 : u.symGone = 0) : ∀ k : Nat, k * x.rate.quarters < 40 →
    (Nat.repeat LaneUnit.age k u).txq = x :: rest
      ∧ (Nat.repeat LaneUnit.age k u).symGone = k * x.rate.quarters
  | 0, _ => ⟨h, by rw [Nat.zero_mul]; exact h0⟩
  | k + 1, hk => by
    rw [Nat.succ_mul] at hk ⊢
    obtain ⟨txq, symGone⟩ := repeat_age_of_symbol h h0 k (by omega)
    have next := (age_of_symbol txq).1 (by rw [symGone]; exact hk)
    rw [symGone] at next
    exact next

/-- A symbol leaves the line after 10 bit times of its rate, and not before. -/
theorem repeat_age_symbol_leaves {u : LaneUnit} {x : LineSymbol} {rest : List LineSymbol}
    (h : u.txq = x :: rest) (h0 : u.symGone = 0) (k : Nat) :
    (k < 10 * x.rate.ticksPerBit → (Nat.repeat LaneUnit.age k u).txq = x :: rest
      ∧ (Nat.repeat LaneUnit.age k u).lineNow = .symbol x.symbol)
    ∧ (k = 10 * x.rate.ticksPerBit →
      (Nat.repeat LaneUnit.age k u).txq = rest ∧ (Nat.repeat LaneUnit.age k u).symGone = 0) := by
  have inside (j : Nat) (hj : j < 10 * x.rate.ticksPerBit) : j * x.rate.quarters < 40 := by
    revert hj
    cases x.rate <;> simp only [Rate.quarters, Rate.ticksPerBit] <;> omega
  refine ⟨fun hk => ?_, fun hk => ?_⟩
  · have txq := (repeat_age_of_symbol h h0 k (inside k hk)).1
    exact ⟨txq, by rw [LaneUnit.lineNow, txq]⟩
  · obtain ⟨j, rfl⟩ : ∃ j, k = j + 1 :=
      ⟨k - 1, by revert hk; cases x.rate <;> simp only [Rate.ticksPerBit] <;> omega⟩
    obtain ⟨txq, symGone⟩ := repeat_age_of_symbol h h0 j (inside j (by omega))
    refine (age_of_symbol txq).2 ?_
    rw [symGone]
    revert hk
    cases x.rate <;> simp only [Rate.quarters, Rate.ticksPerBit] <;> omega

theorem age_txq_of_nil {u : LaneUnit} (h : u.txq = []) : u.age.txq = [] := by
  rw [(age_line u).1, LaneUnit.ageLine]
  split
  · exact h
  · split
    · exact h
    · rw [h]
      rfl

/-- A quiet line stays as it is (R1). -/
theorem age_symGone_of_quiet {u : LaneUnit} (h : u.txq = []) (off : u.state = .off) :
    u.age.symGone = u.symGone := by
  have quiet : u.lineNow = .quiet := by rw [lineNow_of_empty h, if_pos off]
  rw [(age_line u).2, LaneUnit.ageLine, if_pos quiet]

/-- IDL on the line, one tick later: another begins where this one is out (R1). -/
theorem age_symGone_of_idl {u : LaneUnit} (h : u.txq = []) (on : u.state ≠ .off) :
    u.age.symGone = if u.symGone + u.rate.quarters < 40 then u.symGone + u.rate.quarters else 0 := by
  have idl : u.lineNow ≠ .quiet := by
    rw [lineNow_of_empty h, if_neg on]
    exact LineLevel.noConfusion
  have rate : u.lineRate = u.rate := by rw [LaneUnit.lineRate, h]
  rw [(age_line u).2, LaneUnit.ageLine, if_neg idl, rate]
  split <;> rfl

theorem repeat_age_txq_of_nil {u : LaneUnit} (h : u.txq = []) :
    ∀ k : Nat, (Nat.repeat LaneUnit.age k u).txq = []
  | 0 => h
  | k + 1 => age_txq_of_nil (repeat_age_txq_of_nil h k)

theorem repeat_age_symGone_of_quiet {u : LaneUnit} (h : u.txq = []) (off : u.state = .off) :
    ∀ k : Nat, (Nat.repeat LaneUnit.age k u).symGone = u.symGone
  | 0 => rfl
  | k + 1 => by
    have state : (Nat.repeat LaneUnit.age k u).state = .off := by
      rw [linePassed_repeat off k]
      exact off
    exact (age_symGone_of_quiet (repeat_age_txq_of_nil h k) state).trans
      (repeat_age_symGone_of_quiet h off k)

/-- IDL follows IDL on the line, each for 40 quarters. -/
theorem repeat_age_symGone_of_idl {u : LaneUnit} (h : u.txq = []) (on : u.state ≠ .off)
    (h0 : u.symGone = 0) :
    ∀ k : Nat, (Nat.repeat LaneUnit.age k u).symGone = k * u.rate.quarters % 40
  | 0 => by rw [Nat.zero_mul]; exact h0
  | k + 1 => by
    have ih := repeat_age_symGone_of_idl h on h0 k
    obtain ⟨on', rate, -⟩ := (repeat_age (LaneUnit.OnAt u.rate u.watches) (fun _ => onAt_age)
      (fun _ => ()) id (fun _ _ => rfl) u ⟨on, rfl, rfl⟩ k).1
    rw [Nat.repeat, age_symGone_of_idl (repeat_age_txq_of_nil h k) on', ih, rate]
    split
    · rename_i inside
      revert inside
      cases u.rate <;> simp only [Rate.quarters] <;> omega
    · rename_i out
      revert out
      cases u.rate <;> simp only [Rate.quarters] <;> omega

/-- Settles O6: each timer, the quiet interval and the line are counted by themselves, by induction over
the ticks. -/
theorem timeCountsBeatsAndSymbols : Obligations.TimeCountsBeatsAndSymbols := by
  intro u k
  dsimp only
  refine ⟨timePassed_repeat u k, fun off => linePassed_repeat off k,
    fun on => ⟨?_, ?_, ?_, ?_, ?_, ?_, ?_, ?_, ?_, ?_, ?_, ?_, ?_⟩,
    fun x rest h h0 => repeat_age_symbol_leaves h h0 k, fun h => repeat_age_txq_of_nil h k,
    fun h off => repeat_age_symGone_of_quiet h off k, fun h on h0 => ?_⟩
  · exact repeat_age_timer (·.greetTimer) on (fun _ => age_greetTimer) k
  · exact repeat_age_timer (·.bringTimer) on (fun _ => age_bringTimer) k
  · exact repeat_age_timer (·.stopTimer) on (fun _ => age_stopTimer) k
  · exact repeat_age_timer (·.grace) on (fun _ => age_grace) k
  · exact repeat_age_timer (·.ackTimer) on (fun _ => age_ackTimer) k
  · exact repeat_age_timer (·.renewTimer) on (fun _ => age_renewTimer) k
  · intro stopped
    rw [repeat_age_replay on, stopped]
    exact repeat_fixed _ _ rfl k
  · intro n loaded
    rw [repeat_age_replay on, loaded, ReplayTimer.count_repeat,
      Countdown.count_repeat (Nat.le_trans u.rate.quarters_le (by decide)), Rate.beats_eq]
    exact ⟨_, rfl, rfl⟩
  · intro c paused
    rw [repeat_age_replay on, paused]
    exact repeat_fixed _ _ rfl k
  · intro none
    have stands : u.partnerTimer.countHold u.rate.quarters = u.partnerTimer := if_pos none
    rw [repeat_age_partner on]
    exact repeat_fixed _ _ stands k
  · exact fun n hn loaded => repeat_age_hold on hn loaded k
  · intro watched whole
    rw [repeat_age_quiet_watched on watched, whole,
      Countdown.count_repeat (Nat.le_trans u.rate.quarters_le (by decide)), Rate.beats_eq]
  · exact fun unwatched => repeat_age_quiet_unwatched on unwatched k
  · rw [repeat_age_symGone_of_idl h on h0]
    cases u.rate <;> simp only [Rate.quarters, Rate.ticksPerBit] <;> omega

/-! ### The matters of a tick (R4, R5, R118) -/

/-- Both lanes a tick later, before anything that is due happens. -/
def State.aged (s : State) : State := (s.modLane .W LaneUnit.age).modLane .E LaneUnit.age

/-- A tick takes what is due together, in some order. -/
theorem tick_eq (s : State) : tick s =
    (arrange s.aged.dueNow.length s.draws s.aged.dueNow).foldl State.happenIfDue
      { s.aged with draws := s.draws + s.aged.dueNow.length } := by
  have draws : s.aged.draws = s.draws := by simp [State.aged]
  unfold tick
  dsimp only
  rw [show (s.modLane .W LaneUnit.age).modLane .E LaneUnit.age = s.aged from rfl, draws,
    Nat.add_sub_cancel]

theorem step_of_idle {s : State} (h : s.pending = []) : step s = .next (tick s) := by
  rw [step, h]

/-- The count of free values has no part in what is due. -/
theorem isDue_draws (s : State) (n : Nat) (l : Lane) (k : TimedKind) :
    { s with draws := n }.isDue l k = s.isDue l k := by
  cases l <;> rfl

theorem happenIfDue_of_due {s : State} {x : Lane × TimedKind} (h : s.isDue x.1 x.2 = true) :
    s.happenIfDue x = s.happen x.1 x.2 := if_pos h

theorem happenIfDue_of_not_due {s : State} {x : Lane × TimedKind} (h : s.isDue x.1 x.2 = false) :
    s.happenIfDue x = s := if_neg (by rw [h]; exact Bool.false_ne_true)

theorem atIdlEnd_iff (u : LaneUnit) : u.atIdlEnd = true ↔
    u.state ≠ .off ∧ u.unit = .none ∧ u.txq = [] ∧ u.symGone = 0 := by
  simp [LaneUnit.atIdlEnd, LaneUnit.mayTakeOpportunity, and_assoc]

/-- A timer has run out when it runs with no beat left. -/
theorem any_left_eq_zero_iff (c : Option Countdown) :
    c.any (·.left == 0) = true ↔ ∃ d, c = some d ∧ d.left = 0 := by
  cases c <;> simp

theorem ranOut_iff (r : ReplayTimer) : r.ranOut = true ↔ ∃ d, r = .running d ∧ d.left = 0 := by
  cases r <;> simp [ReplayTimer.ranOut]

/-- What comes together in a tick in which something is due. -/
theorem mem_dueNow_iff {s : State} {l : Lane} {k : TimedKind} (h : s.isDue l k = true)
    (x : Lane × TimedKind) : x ∈ s.dueNow ↔ s.isDue x.1 x.2 = true ∨ (x.2 = .opportunity
      ∧ (s.lane x.1).state ≠ .off ∧ (s.lane x.1).unit = .none ∧ (s.lane x.1).txq = []
      ∧ (s.lane x.1).symGone = 0) := by
  rw [mem_dueNow h, atIdlEnd_iff]

/-- What is due on a lane, matter by matter (R4, R5, R112, R118; log 12). -/
theorem isDue_iff (t : State) (l : Lane) :
    (t.isDue l .unitEnd = true ↔ (t.lane l).unit ≠ .none ∧ (t.lane l).txq = [])
    ∧ (t.isDue l .opportunity = true ↔ (t.lane l).state ≠ .off ∧ (t.lane l).unit = .none
        ∧ (t.lane l).txq = [] ∧ (t.lane l).symGone = 0
        ∧ (t.lane l).arbiter t.cfg (t.cfg.lane l) ≠ .nothing)
    ∧ (t.isDue l .lossOfSignal = true ↔ (t.lane l).watches = true ∧ (t.lane l).quiet.left = 0)
    ∧ (t.isDue l .partnerEnd = true ↔ (t.lane l).partnerTimer.left = 1
        ∧ 256 ≤ (t.lane l).partnerTimer.gone) := by
  refine ⟨?_, ?_, ?_, ?_⟩
  · simp [State.isDue]
  · rw [State.isDue, Bool.and_eq_true, atIdlEnd_iff, bne_iff_ne]
    simp only [and_assoc]
  · simp [State.isDue]
  · simp [State.isDue]

/-- Settles O7: the matters that come together are arranged in some order, and each that is due at its
turn happens as its command says. -/
theorem tickBringsAboutWhatIsDue : Obligations.TickBringsAboutWhatIsDue := by
  intro s idle
  dsimp only
  rw [step_of_idle idle, tick_eq]
  have draws : s.aged.draws = s.draws := by simp [State.aged]
  refine ⟨fun none => ?_, fun l k due alone => ?_, fun ⟨l, k, due⟩ => ?_,
    fun t x => ⟨fun due => ?_, happenIfDue_of_not_due⟩, fun t l => ?_⟩
  · have nothing : s.aged.dueNow = [] := dueNow_of_none none
    rw [nothing, List.length_nil, Nat.add_zero, ← draws]
    rfl
  · have members (x : Lane × TimedKind) : x ∈ s.aged.dueNow ↔ x ∈ [(l, k)] := by
      rw [List.mem_singleton, mem_dueNow_iff (s := s.aged) due]
      refine ⟨alone x, ?_⟩
      rintro rfl
      exact .inl due
    have one : s.aged.dueNow = [(l, k)] := List.perm_singleton.1
      ((List.perm_ext_iff_of_nodup (dueNow_nodup _) (List.nodup_cons.2 ⟨List.not_mem_nil, List.nodup_nil⟩)).2 members)
    rw [one, arrange_of_length_le_one _ _ (by simp), exec_command, List.foldl_cons,
      List.foldl_nil, happenIfDue_of_due]
    · rfl
    · rw [isDue_draws]
      exact due
  · have order := arrange_perm s.aged.dueNow.length s.draws s.aged.dueNow
    refine ⟨_, order.nodup_iff.2 (dueNow_nodup _),
      fun x => order.mem_iff.trans (mem_dueNow_iff (s := s.aged) due x), ?_⟩
    rw [order.length_eq]
    rfl
  · rw [exec_command, happenIfDue_of_due due]
  · obtain ⟨unitEnd, opportunity, loss, partner⟩ := isDue_iff t l
    exact ⟨unitEnd, opportunity, loss, any_left_eq_zero_iff _, any_left_eq_zero_iff _,
      any_left_eq_zero_iff _, any_left_eq_zero_iff _, any_left_eq_zero_iff _, ranOut_iff _,
      any_left_eq_zero_iff _, partner⟩

end Sys2Proof.Machine
end

section
/-! SUPPORT. Acknowledgement, replay and holds as the transmitter of a lane takes them (chapter 5, with
the partner hold of R111), and the timers of chapters 5 and 6. -/
namespace Sys2Proof.Machine

/-! ### The timers of acknowledgement, replay and holds (R87, R96, R107, R112) -/

theorem held_iff (u : LaneUnit) : u.held = true ↔ 0 < u.partnerTimer.left := decide_eq_true_iff

theorem held_eq_false_iff (u : LaneUnit) : u.held = false ↔ u.partnerTimer.left = 0 := by
  simp [LaneUnit.held]

theorem expireReplay_of_running {u : LaneUnit} {t : Countdown} (h : u.replayTimer = .running t)
    (c : Settings) : u.expireReplay c = { u with
      pointer := u.oldestUnacked, replayTimer := .running (.load c.rtmo.toNat) } := by
  rw [LaneUnit.expireReplay, h]

theorem expireReplay_of_not_running {u : LaneUnit} (h : ∀ t, u.replayTimer ≠ .running t)
    (c : Settings) : u.expireReplay c = u := by
  unfold LaneUnit.expireReplay
  split
  · next t run => exact absurd run (h t)
  · rfl
  · rfl

theorem expireRenew_of_not_holding {u : LaneUnit} (h : u.renewTimer = none ∨ u.ownHold = .clear)
    (c : Settings) : u.expireRenew c = u := by
  unfold LaneUnit.expireRenew
  rcases h with h | h
  · rw [h]
    rfl
  · rw [h]
    exact ite_self u

theorem expireRenew_of_holdStd {u : LaneUnit} (run : u.renewTimer ≠ none) (std : u.ownHold = .holdStd)
    (c : Settings) : u.expireRenew c = { u with
      pendHold := some ⟨.standard, c.htime.setWidth 12⟩, renewTimer := none } := by
  simp [LaneUnit.expireRenew, Option.isSome_iff_ne_none.2 run, std, LaneUnit.requestHold, Settings.holdTime]

theorem expireRenew_of_holdAll {u : LaneUnit} (run : u.renewTimer ≠ none) (all : u.ownHold = .holdAll)
    (c : Settings) : u.expireRenew c = { u with
      pendHold := some ⟨.all, c.htime.setWidth 12⟩, renewTimer := none } := by
  simp [LaneUnit.expireRenew, Option.isSome_iff_ne_none.2 run, all, LaneUnit.requestHold, Settings.holdTime]

/-- Settles O48: each timer by whether it runs, and the renew timer by the own hold too. -/
theorem trafficTimersExpire : Obligations.TrafficTimersExpire := by
  intro s l
  dsimp only
  have ack : exec (.ackDelayExpiry l) s = .next (s.expireAckDelay l) := rfl
  have replay : exec (.replayTimerExpiry l) s =
      .next (s.setLane l ((s.lane l).expireReplay s.cfg)) := rfl
  have renew : exec (.renewTimerExpiry l) s =
      .next (s.setLane l ((s.lane l).expireRenew s.cfg)) := rfl
  have partner : exec (.partnerHoldExpiry l) s = .next (s.expirePartner l) := rfl
  refine ⟨fun h => ?_, fun run => ?_, fun h => ?_, fun t run => ?_, fun h => ?_, fun run std => ?_,
    fun run all => ?_, fun h => ?_, fun active => ?_⟩
  · rw [ack, State.expireAckDelay, h]
    rfl
  · rw [ack, State.expireAckDelay, if_pos (Option.isSome_iff_ne_none.2 run)]
    rfl
  · rw [replay, expireReplay_of_not_running h, State.setLane_self]
  · rw [replay, expireReplay_of_running run]
    rfl
  · rw [renew, expireRenew_of_not_holding h, State.setLane_self]
  · rw [renew, expireRenew_of_holdStd run std]
  · rw [renew, expireRenew_of_holdAll run all]
  · rw [partner, State.expirePartner, (held_eq_false_iff _).2 h]
    rfl
  · rw [partner, State.expirePartner, if_pos ((held_iff _).2 active), State.modLane]
    cases (s.lane l).replayTimer <;> rfl

/-! ### A link word on a lane that carries traffic (R16) -/

theorem carries_iff (x : LaneState) : x.carries = true ↔ x = .up ∨ x = .stopping := by
  cases x <;> simp [LaneState.carries]

@[simp] theorem LaneUnit.between_between (u : LaneUnit) : u.between.between = u.between := rfl

@[simp] theorem LaneUnit.between_holdUse (u : LaneUnit) : u.between.holdUse = u.holdUse := rfl

@[simp] theorem LaneUnit.between_replayTimer (u : LaneUnit) : u.between.replayTimer = u.replayTimer := rfl

section
variable {s : State} {l : Lane} (carries : (s.lane l).state.carries = true)
  (closed : (s.lane l).framing ≠ .inParcel)
include carries closed

theorem exec_ackReceived (q : Seq) :
    exec (.ackReceived l q) s = .next ((s.setLane l (s.lane l).between).takeAck l q) := by
  rw [exec, execAckReceived, onWord_eq s l _ (ne_off_of_carries carries) (.inr closed), State.takeWord]
  simp [carries]

theorem exec_replayReceived (q : Seq) : exec (.replayReceived l q) s = .next
    ((bump (.ofLane l .replayRx) (s.setLane l (s.lane l).between)).matchReplay l q) := by
  rw [exec, execReplayReceived, onWord_eq s l _ (ne_off_of_carries carries) (.inr closed), State.takeWord]
  simp [carries, State.takeReplay]

theorem exec_holdReceived (sc : HoldScope) (t : BitVec 12) :
    exec (.holdReceived l sc t) s = .next ((s.setLane l (s.lane l).between).takeHold l sc t) := by
  rw [exec, execHoldReceived, onWord_eq s l _ (ne_off_of_carries carries) (.inr closed), State.takeWord]
  simp [carries]

end

/-! ### A HOLD (R103, R111) -/

theorem setPartner_zero (sc : HoldScope) (u : LaneUnit) : u.setPartner sc 0 =
    { u with partnerTimer := .load 0, replayTimer := u.replayTimer.resume } := rfl

theorem setPartner_of_ne_zero {t : BitVec 12} (ht : t ≠ 0) (sc : HoldScope) (u : LaneUnit) :
    u.setPartner sc t = { u with
      partnerScope := sc, partnerTimer := .load t.toNat, replayTimer := u.replayTimer.pause } :=
  if_neg ht

/-- A HOLD with a time above 0 leaves the partner hold active, one with time 0 ends it (R111). -/
theorem held_setPartner (sc : HoldScope) (t : BitVec 12) (u : LaneUnit) :
    (u.setPartner sc t).held = decide (t ≠ 0) := by
  by_cases ht : t = 0
  · rw [ht, setPartner_zero]
    rfl
  · have positive : 0 < t.toNat := Nat.pos_of_ne_zero fun h => ht (BitVec.eq_of_toNat_eq h)
    rw [setPartner_of_ne_zero ht, decide_eq_true ht]
    exact decide_eq_true positive

/-- With hold use, a HOLD is counted and taken, and HELD is raised where it makes the hold active or ends
an active one (R111). -/
theorem takeHold_of_use {s : State} {l : Lane} (use : (s.lane l).holdUse = true) (sc : HoldScope)
    (t : BitVec 12) : s.takeHold l sc t =
      let now := bump (.ofLane l .holdRx) (s.setLane l ((s.lane l).setPartner sc t))
      if (s.lane l).held = decide (t ≠ 0) then now else raise (.held l) now := by
  rw [State.takeHold, if_pos use]
  simp only [State.modLane, bump_lane, setLane_bump, State.setLane_lane, held_setPartner, bne_iff_ne]
  exact ite_not _ _ _

/-- Settles O47: by hold use, the word's time, and whether a hold is active. -/
theorem holdWordSetsPartnerHold : Obligations.HoldWordSetsPartnerHold := by
  intro s l sc t
  dsimp only
  intro traffic closed
  rw [exec_holdReceived ((carries_iff _).2 traffic) closed]
  have active (h : 0 < (s.lane l).partnerTimer.left) : (s.lane l).between.held = true :=
    (held_iff _).2 h
  have idle (h : (s.lane l).partnerTimer.left = 0) : (s.lane l).between.held = false :=
    (held_eq_false_iff _).2 h
  have takes (use : (s.lane l).holdUse = true) :=
    takeHold_of_use (s := s.setLane l (s.lane l).between) (l := l) (by simpa using use) sc t
  simp only [State.setLane_lane, State.setLane_setLane] at takes
  refine ⟨fun unused => ?_, fun use ht h => ?_, fun use ht h => ?_, fun use ht h => ?_,
    fun use ht h => ?_⟩
  · have : ((s.setLane l (s.lane l).between).lane l).holdUse = false := by simpa using unused
    rw [State.takeHold, this]
    rfl
  · rw [takes use, idle h, decide_eq_true ht, if_neg Bool.false_ne_true, setPartner_of_ne_zero ht,
      LaneUnit.between_replayTimer]
    cases (s.lane l).replayTimer <;> rfl
  · rw [takes use, active h, decide_eq_true ht, if_pos rfl, setPartner_of_ne_zero ht,
      LaneUnit.between_replayTimer]
    cases (s.lane l).replayTimer <;> rfl
  · subst ht
    rw [takes use, active h, setPartner_zero, if_neg (by simp), LaneUnit.between_replayTimer]
    cases (s.lane l).replayTimer <;> rfl
  · subst ht
    rw [takes use, idle h, setPartner_zero, if_pos (by simp), LaneUnit.between_replayTimer]
    cases (s.lane l).replayTimer <;> rfl

/-! ### The replay list (R90, R93, R95) -/

theorem entry?_of_first {u : LaneUnit} {es fs : List ReplayEntry} {e : ReplayEntry}
    (split : u.replay = es ++ e :: fs) (first : ∀ x ∈ es, x.seq ≠ e.seq) :
    u.entry? e.seq = some e := by
  have before : es.find? (fun x => x.seq == e.seq) = none :=
    List.find?_eq_none.2 fun x hx => by simpa using first x hx
  rw [LaneUnit.entry?, split, List.find?_append, before, Option.none_or,
    List.find?_cons_of_pos (by simp)]

theorem entry?_of_absent {u : LaneUnit} {q : Seq} (h : ∀ e ∈ u.replay, e.seq ≠ q) :
    u.entry? q = none :=
  List.find?_eq_none.2 fun e he => by simpa using h e he

/-- Marking up to an entry leaves the newer ones as they are (R93). -/
theorem mem_markUpTo_of_newer {d x : ReplayEntry} {fs : List ReplayEntry} (hx : x ∈ fs) :
    ∀ es : List ReplayEntry, x ∈ markUpTo d.seq (es ++ d :: fs)
  | [] => by
    rw [List.nil_append, markUpTo, if_pos rfl]
    exact List.mem_cons_of_mem _ hx
  | a :: es => by
    rw [List.cons_append, markUpTo]
    refine List.mem_cons_of_mem _ ?_
    split
    · exact List.mem_append_right _ (List.mem_cons_of_mem _ hx)
    · exact mem_markUpTo_of_newer hx es

theorem afterAck_replay (c : Settings) (u : LaneUnit) : (u.afterAck c).replay = u.replay := by
  have same : u.repoint.replay = u.replay := by
    unfold LaneUnit.repoint
    split
    · rfl
    · split <;> rfl
  rw [← same]
  unfold LaneUnit.afterAck
  dsimp only
  split <;> rfl

/-- What an acknowledgement leaves of the replay list (R93). -/
theorem ackEntries_replay (s : State) (l : Lane) (q : Seq) : ((s.ackEntries l q).lane l).replay =
    (markUpTo q (s.lane l).replay).dropWhile ReplayEntry.leaves := by
  rw [State.ackEntries, State.modLane_lane, afterAck_replay, (phase_removeAcked _ l).mine]
  simp [LaneUnit.withoutAcked]

theorem ackEntries_cfg (s : State) (l : Lane) (q : Seq) : (s.ackEntries l q).cfg = s.cfg :=
  (Kept.ackEntries (C := survives_sameHost s) (.refl s) l q : SameHost s _).cfg

/-- An entry that may not leave stays, with the newer ones behind it (R93). -/
theorem mem_dropWhile_of_stays {e : ReplayEntry} (stays : e.leaves = false) : ∀ {es : List ReplayEntry},
    e ∈ es → e ∈ es.dropWhile ReplayEntry.leaves
  | a :: es, he => by
    cases ha : a.leaves with
    | false => rwa [List.dropWhile_cons_of_neg (Bool.eq_false_iff.1 ha)]
    | true =>
      rw [List.dropWhile_cons_of_pos ha]
      rcases List.mem_cons.1 he with rfl | he
      · exact Bool.noConfusion (stays.symm.trans ha)
      · exact mem_dropWhile_of_stays stays he

/-- An ACK that leaves an entry not marked acked completes no drain (R53, R93). -/
theorem acknowledge_of_unacked {s : State} {l : Lane} {q : Seq} {e : ReplayEntry}
    (he : e ∈ markUpTo q (s.lane l).replay) (unacked : e.acked = false) :
    s.acknowledge l q = s.ackEntries l q := by
  have remains : ((s.ackEntries l q).lane l).replay ≠ [] := by
    have stays : e.leaves = false := by rw [ReplayEntry.leaves, unacked, Bool.false_and]
    rw [ackEntries_replay]
    exact List.ne_nil_of_mem (mem_dropWhile_of_stays stays he)
  rw [State.acknowledge, State.drainCheck, if_neg fun h => remains h.2]

theorem loadReplayTimer_eq (c : Settings) (u : LaneUnit) :
    u.loadReplayTimer c = { u with replayTimer := u.loaded c.rtmo.toNat } := by
  simp [LaneUnit.loadReplayTimer, LaneUnit.loaded, LaneUnit.held]

theorem replayFrom_eq (c : Settings) (q : Seq) (u : LaneUnit) : u.replayFrom c q =
    { u with pointer := some q, replayTimer := u.loaded c.rtmo.toNat } :=
  loadReplayTimer_eq c { u with pointer := some q }

/-! ### A REPLAY (R95) -/

section
variable {s : State} {l : Lane} {q : Seq} {e : ReplayEntry}

theorem matchReplay_of_acked (found : (s.lane l).entry? q = some e) (acked : e.acked = true) :
    s.matchReplay l q = bump (.ofLane l .ackStray) s := by
  simp [State.matchReplay, found, acked]

theorem matchReplay_of_oldest (found : (s.lane l).entry? q = some e) (unacked : e.acked = false)
    (oldest : (s.lane l).replay.head?.map (·.seq) = some q) :
    s.matchReplay l q = s.setLane l { s.lane l with
      pointer := some q, replayTimer := (s.lane l).loaded s.cfg.rtmo.toNat } := by
  simp [State.matchReplay, found, unacked, oldest, State.modLane, replayFrom_eq]

theorem matchReplay_of_later (found : (s.lane l).entry? q = some e) (unacked : e.acked = false)
    (later : (s.lane l).replay.head?.map (·.seq) ≠ some q) :
    s.matchReplay l q = (s.ackEntries l (q - 1)).setLane l { (s.ackEntries l (q - 1)).lane l with
      pointer := some q
      replayTimer := ((s.ackEntries l (q - 1)).lane l).loaded s.cfg.rtmo.toNat } := by
  simp only [State.matchReplay, found, unacked, Bool.false_eq_true, if_false, if_neg later,
    State.modLane, replayFrom_eq, ackEntries_cfg]

theorem matchReplay_of_stray (absent : (s.lane l).entry? q = none) (h : q ≠ (s.lane l).nextSeq) :
    s.matchReplay l q = bump (.ofLane l .ackStray) s := by
  simp [State.matchReplay, absent, h]

theorem matchReplay_of_next (absent : (s.lane l).entry? q = none) (h : q = (s.lane l).nextSeq) :
    s.matchReplay l q = if (s.lane l).replay = [] then s else s.acknowledge l (q - 1) := by
  simp [State.matchReplay, absent, ← h]

end

/-- Settles O46: by what the seq names in the list (R95). -/
theorem replayWordMatchedAgainstList : Obligations.ReplayWordMatchedAgainstList := by
  intro s l q
  dsimp only
  intro traffic closed
  have carries := (carries_iff _).2 traffic
  rw [exec_replayReceived carries closed]
  generalize hb : bump (.ofLane l .replayRx) (s.setLane l (s.lane l).between) = b
  have lane : b.lane l = (s.lane l).between := by rw [← hb, bump_lane, State.setLane_lane]
  have cfg : b.cfg = s.cfg := by rw [← hb, bump_cfg, State.setLane_cfg]
  have list : (b.lane l).replay = (s.lane l).replay := by rw [lane]; rfl
  have next : (b.lane l).nextSeq = (s.lane l).nextSeq := by rw [lane]; rfl
  have acks (p : Seq) : exec (.ackReceived l p) b = .next (b.takeAck l p) := by
    rw [exec_ackReceived (by rw [lane]; exact carries) (by simp [lane]),
      lane, LaneUnit.between_between, ← lane, State.setLane_self]
  have known {es fs : List ReplayEntry} {d : ReplayEntry} (split : (s.lane l).replay = es ++ d :: fs)
      (first : ∀ x ∈ es, x.seq ≠ d.seq) : (b.lane l).entry? d.seq = some d :=
    entry?_of_first (list.trans split) first
  have acknowledged {es fs : List ReplayEntry} {d : ReplayEntry}
      (split : (s.lane l).replay = es ++ d :: fs) :
      exec (.ackReceived l d.seq) b = .next (b.acknowledge l d.seq) := by
    have named : ((b.lane l).entry? d.seq).isSome = true := by
      rw [LaneUnit.entry?, List.find?_isSome, list, split]
      exact ⟨d, by simp⟩
    rw [acks, State.takeAck, if_pos named]
  have unknown (absent : ∀ e ∈ (s.lane l).replay, e.seq ≠ q) : (b.lane l).entry? q = none :=
    entry?_of_absent (by rwa [list])
  refine ⟨fun e es split hq unacked => ?_, fun es d e fs split hq unacked hd before => ?_,
    fun absent hq empty => ?_, fun es d absent hq split hd => ?_,
    fun es e fs split before hq acked => ?_, fun absent hq => ?_⟩
  · subst hq
    have found := known (es := []) split (by simp)
    rw [matchReplay_of_oldest found unacked (by rw [list, split]; rfl), lane, cfg, ← hb, setLane_bump,
      State.setLane_setLane]
  · subst hq
    have differ : d.seq ≠ e.seq := by rw [hd]; bv_omega
    have found : (b.lane l).entry? e.seq = some e := by
      refine known (es := es ++ [d]) (fs := fs) (by simp [split]) ?_
      simpa [or_imp, forall_and, differ] using fun x hx => (before x hx).1
    have later : (b.lane l).replay.head?.map (·.seq) ≠ some e.seq := by
      rw [list, split]
      cases es with
      | nil => simpa using differ
      | cons a as => simpa using (before a List.mem_cons_self).1
    have remains : e ∈ markUpTo d.seq (b.lane l).replay := by
      rw [list, split]
      exact mem_markUpTo_of_newer List.mem_cons_self es
    refine ⟨b.ackEntries l (e.seq - 1), ?_, ?_⟩
    · rw [← hd, acknowledged split, acknowledge_of_unacked remains unacked]
    · rw [matchReplay_of_later found unacked later, cfg]
  · rw [matchReplay_of_next (unknown absent) (hq.trans next.symm), if_pos (list.trans empty)]
  · rw [matchReplay_of_next (unknown absent) (hq.trans next.symm), if_neg (by simp [list, split]), ← hd,
      acknowledged split]
  · subst hq
    rw [matchReplay_of_acked (known split before) acked]
  · rw [matchReplay_of_stray (unknown absent) (by rwa [next])]

end Sys2Proof.Machine
end

section
/-! SUPPORT. What a start opportunity does where no link word is pending: resends, replay failures and first
transmissions (R97, R98, R119 to R125). -/
namespace Sys2Proof.Machine

/-! ### The opportunity with no link word pending (R118 to R120) -/

theorem greets_of_carries {x : LaneState} (h : x.carries = true) : x.greets = false := by
  rcases (carries_iff x).1 h with rfl | rfl <;> rfl

section
variable {s : State} {l : Lane} (carries : (s.lane l).state.carries = true)
  (idle : (s.lane l).unit = .none) (hold : (s.lane l).pendHold = none)
  (replay : (s.lane l).pendReplay = none) (ack : (s.lane l).pendAck = none)
include carries

include idle in
theorem mayTakeOpportunity_of_carries : (s.lane l).mayTakeOpportunity = true := by
  simp [LaneUnit.mayTakeOpportunity, idle, ne_off_of_carries carries]

include hold replay ack

theorem wordChoice_of_none_pending (c : Settings) (m : LaneSettings) : (s.lane l).wordChoice c m = none := by
  simp [LaneUnit.wordChoice, greets_of_carries carries, hold, replay, ack]

include idle

theorem exec_startOpportunity_of_resend {q : Seq} (resend : (s.lane l).resendChoice = some q) :
    exec (.startOpportunity l) s = .next (s.resend l q) := by
  rw [exec, execStartOpportunity, State.opportunity, if_pos (mayTakeOpportunity_of_carries carries idle),
    LaneUnit.arbiter, wordChoice_of_none_pending carries hold replay ack, resend]

theorem exec_startOpportunity_of_first {k : TrafficClass} (noResend : (s.lane l).resendChoice = none)
    (first : (s.lane l).classChoice s.cfg = some k) :
    exec (.startOpportunity l) s =
      .next (s.firstTransmission l k ((s.lane l).queueChoice k)) := by
  rw [exec, execStartOpportunity, State.opportunity, if_pos (mayTakeOpportunity_of_carries carries idle),
    LaneUnit.arbiter, wordChoice_of_none_pending carries hold replay ack, noResend, first]

theorem exec_startOpportunity_of_nothing (noResend : (s.lane l).resendChoice = none)
    (noFirst : (s.lane l).classChoice s.cfg = none) : exec (.startOpportunity l) s = .next s := by
  rw [exec, execStartOpportunity, State.opportunity, if_pos (mayTakeOpportunity_of_carries carries idle),
    LaneUnit.arbiter, wordChoice_of_none_pending carries hold replay ack, noResend, noFirst]

end

/-! ### The partner hold at the arbiter (R113) -/

theorem barred_iff (u : LaneUnit) (k : TrafficClass) : u.barred k = true ↔
    0 < u.partnerTimer.left ∧ (u.partnerScope = .all ∨ k = .standard) := by
  rw [LaneUnit.barred, Bool.and_eq_true, held_iff, Bool.or_eq_true, beq_iff_eq, beq_iff_eq]

theorem mayStart_iff (u : LaneUnit) (k : TrafficClass) : u.mayStart k = true ↔
    (u.fwd k ≠ [] ∨ u.send k ≠ [])
      ∧ ¬(0 < u.partnerTimer.left ∧ (u.partnerScope = .all ∨ k = .standard)) := by
  rw [LaneUnit.mayStart, Bool.and_eq_true, ← barred_iff]
  simp [LaneUnit.waits]

/-! ### Resends (R97, R98, R121) -/

theorem resendChoice_of_no_pointer {u : LaneUnit} (h : u.pointer = none) : u.resendChoice = none := by
  rw [LaneUnit.resendChoice, h]
  exact ite_self _

theorem resendChoice_of_barred {u : LaneUnit} {q : Seq} {e : ReplayEntry} (pointer : u.pointer = some q)
    (entry : u.entry? q = some e) (barred : u.barred e.cls = true) : u.resendChoice = none := by
  simp [LaneUnit.resendChoice, pointer, entry, barred]

theorem resendChoice_of_free {u : LaneUnit} {q : Seq} {e : ReplayEntry}
    (carries : u.state.carries = true) (pointer : u.pointer = some q) (entry : u.entry? q = some e)
    (free : u.barred e.cls = false) : u.resendChoice = some q := by
  simp [LaneUnit.resendChoice, carries, pointer, entry, free]

theorem markResent_of_absent {q : Seq} {xs : List ReplayEntry} (h : ∀ x ∈ xs, x.seq ≠ q) :
    markResent q xs = xs :=
  (List.map_congr_left (g := id) fun x hx => if_neg (h x hx)).trans (List.map_id xs)

section
variable {e : ReplayEntry} {es fs : List ReplayEntry} (only : ∀ x ∈ es ++ fs, x.seq ≠ e.seq)
include only

theorem markResent_of_only : markResent e.seq (es ++ e :: fs) =
    es ++ { e with attempts := e.attempts + 1, onWire := true } :: fs := by
  have split : markResent e.seq (es ++ e :: fs) = markResent e.seq es ++
      { e with attempts := e.attempts + 1, onWire := true } :: markResent e.seq fs := by
    rw [markResent, List.map_append, List.map_cons, if_pos rfl]
    rfl
  rw [split, markResent_of_absent fun x hx => only x (List.mem_append_left _ hx),
    markResent_of_absent fun x hx => only x (List.mem_append_right _ hx)]

theorem nextNewer_of_only : nextNewer e.seq (es ++ e :: fs) = fs.head?.map (·.seq) := by
  have skipped : (es ++ e :: fs).dropWhile (fun x => x.seq != e.seq) = e :: fs := by
    rw [List.dropWhile_append_of_pos, List.dropWhile_cons_of_neg (by simp)]
    exact fun x hx => by simpa using only x (List.mem_append_left _ hx)
  rw [nextNewer, skipped]
  rfl

end

/-- A unit on the line (R1, R118; log 9, log 28). -/
theorem startUnit_eq (x : TxUnit) (xs : List Symbol) (u : LaneUnit) : u.startUnit x xs = { u with
    unit := x, txq := u.txq ++ atRate u.rate xs, symGone := if u.txq = [] then 0 else u.symGone } := by
  simp [LaneUnit.startUnit]

theorem resend_of_limit {s : State} {l : Lane} {q : Seq} {e : ReplayEntry}
    (entry : (s.lane l).entry? q = some e) (limit : e.attempts = s.cfg.rlim.toNat) :
    s.resend l q = s.failLane l := by
  rw [State.resend, entry]
  exact if_pos limit

theorem resend_of_below {s : State} {l : Lane} {q : Seq} {e : ReplayEntry}
    (entry : (s.lane l).entry? q = some e) (below : e.attempts ≠ s.cfg.rlim.toNat) :
    s.resend l q = bump (.ofLane l .txResends) (s.setLane l { s.lane l with
      replay := markResent q (s.lane l).replay, pointer := nextNewer q (s.lane l).replay
      unit := .parcel q
      txq := (s.lane l).txq ++ atRate (s.lane l).rate (s.parcelSymbols e.handle q)
      symGone := if (s.lane l).txq = [] then 0 else (s.lane l).symGone }) := by
  rw [State.resend, entry]
  simp only [if_neg below, State.modLane, bump_lane, setLane_bump, startUnit_eq]
  rfl

/-- Settles O50: by the hold, the attempts and the lane state. -/
theorem resendOrReplayFailure : Obligations.ResendOrReplayFailure := by
  intro s l es e fs
  dsimp only
  intro traffic idle hold replay ack pointer split only
  have carries := (carries_iff _).2 traffic
  have entry : (s.lane l).entry? e.seq = some e :=
    entry?_of_first split fun x hx => only x (List.mem_append_left _ hx)
  rw [← barred_iff]
  have go (free : ¬(s.lane l).barred e.cls = true) :
      exec (.startOpportunity l) s = .next (s.resend l e.seq) :=
    exec_startOpportunity_of_resend carries idle hold replay ack
      (resendChoice_of_free carries pointer entry (Bool.eq_false_iff.2 free))
  have lost := lost_failLane s l
  refine ⟨fun free limit up => ?_, fun free limit stopping => ?_, fun free below => ?_,
    fun barred stopping => ?_⟩
  · rw [up] at lost
    exact ⟨_, by rw [go free, resend_of_limit entry limit], lost⟩
  · rw [stopping] at lost
    exact ⟨_, by rw [go free, resend_of_limit entry limit], lost⟩
  · rw [go free, resend_of_below entry below, split, markResent_of_only only, nextNewer_of_only only]
  · refine exec_startOpportunity_of_nothing carries idle hold replay ack
      (resendChoice_of_barred pointer entry barred) (if_pos (.inl ?_))
    rw [stopping]
    decide

/-! ### First transmissions (R91, R122 to R125) -/

theorem entry?_of_unique {u : LaneUnit} {e : ReplayEntry} (he : e ∈ u.replay)
    (unique : ∀ x ∈ u.replay, x.seq = e.seq → x = e) : u.entry? e.seq = some e := by
  obtain ⟨x, hx⟩ : ∃ x, u.entry? e.seq = some x :=
    Option.isSome_iff_exists.1 (List.find?_isSome.2 ⟨e, he, beq_self_eq_true _⟩)
  have same : x.seq = e.seq := by simpa using List.find?_some hx
  rw [hx, unique x (List.mem_of_find?_eq_some hx) same]

section
variable {u : LaneUnit} {c : Settings}

theorem classChoice_of_not_up (h : u.state ≠ .up) : u.classChoice c = none := if_pos (.inl h)

theorem classChoice_of_full (h : 32 ≤ u.replay.length) : u.classChoice c = none := if_pos (.inr h)

theorem standardFirst_iff : u.standardFirst c = true ↔
    u.mayStart .standard = true ∧ 0 < c.xratio.toNat ∧ c.xratio.toNat ≤ u.streak := by
  rw [LaneUnit.standardFirst, Bool.and_eq_true, Bool.and_eq_true, decide_eq_true_eq, decide_eq_true_eq,
    and_comm]

theorem classChoice_of_no_head (express : ¬u.mayStart .express = true)
    (standard : ¬u.mayStart .standard = true) : u.classChoice c = none := by
  have : ¬u.standardFirst c = true := fun h => standard (standardFirst_iff.1 h).1
  simp [LaneUnit.classChoice, this, express, standard]

variable (up : u.state = .up) (room : u.replay.length < 32)
include up room

/-- Standard goes first where the streak calls for it or express has no head that may start (R123). -/
theorem classChoice_of_standard (may : u.mayStart .standard = true)
    (turn : (0 < c.xratio.toNat ∧ c.xratio.toNat ≤ u.streak) ∨ ¬u.mayStart .express = true) :
    u.classChoice c = some .standard := by
  rw [LaneUnit.classChoice, if_neg (by simp [up, room])]
  rcases turn with streak | express
  · rw [if_pos (standardFirst_iff.2 ⟨may, streak⟩)]
  · rw [if_neg express, if_pos may, ite_self]

/-- Express goes first unless the streak calls for a standard head (R123). -/
theorem classChoice_of_express (may : u.mayStart .express = true)
    (turn : ¬(u.mayStart .standard = true ∧ 0 < c.xratio.toNat ∧ c.xratio.toNat ≤ u.streak)) :
    u.classChoice c = some .express := by
  rw [LaneUnit.classChoice, if_neg (by simp [up, room]), if_neg (mt standardFirst_iff.1 turn), if_pos may]

end

section
variable {u : LaneUnit} {k : TrafficClass} {h : Handle} {q : List Handle}

theorem queueChoice_forward (head : u.fwd k = h :: q) (turn : u.send k = [] ∨ u.turn k = .send) :
    u.queueChoice k = .forward := by
  rcases turn with empty | turn
  · simp [LaneUnit.queueChoice, empty]
  · simp [LaneUnit.queueChoice, head, turn]

theorem queueChoice_send (head : u.send k = h :: q) (turn : u.fwd k = [] ∨ u.turn k = .forward) :
    u.queueChoice k = .send := by
  rcases turn with empty | turn
  · simp [LaneUnit.queueChoice, head, empty]
  · simp [LaneUnit.queueChoice, head, turn]

theorem popHead_forward (head : u.fwd k = h :: q) : u.popHead k .forward = u.setFwd k q := by
  rw [LaneUnit.popHead, head, List.drop_one, List.tail_cons]

theorem popHead_send (head : u.send k = h :: q) : u.popHead k .send = u.setSend k q := by
  rw [LaneUnit.popHead, head, List.drop_one, List.tail_cons]

end

/-- A head leaves its queue, and nothing else of the unit changes (R125). -/
theorem popHead_eq (k : TrafficClass) (t : Turn) (u : LaneUnit) : ∃ fx fs sx ss,
    u.popHead k t = { u with fwdX := fx, fwdS := fs, sendX := sx, sendS := ss } := by
  cases k <;> cases t <;> exact ⟨_, _, _, _, rfl⟩

/-- A lane's unit that starts a head: the queue without it, the new newest entry, the timer, the turn and the
streak, and the parcel on the line (R91, R123 to R125). -/
theorem startHead_eq (c : Settings) (h : Handle) (k : TrafficClass) (t : Turn) (xs : List Symbol)
    (u : LaneUnit) : (((u.popHead k t).joinReplay c h k).served k t).startUnit (.parcel u.nextSeq) xs =
    { u.popHead k t with
      nextSeq := u.nextSeq + 1
      replay := u.replay ++ [⟨u.nextSeq, h, k, 0, true, false⟩]
      replayTimer := if u.replayTimer = .stopped then u.loaded c.rtmo.toNat else u.replayTimer
      turnX := if k = .express then t else u.turnX
      turnS := if k = .standard then t else u.turnS
      streak := if k = .express then min (u.streak + 1) 15 else 0
      unit := .parcel u.nextSeq
      txq := u.txq ++ atRate u.rate xs
      symGone := if u.txq = [] then 0 else u.symGone } := by
  obtain ⟨fx, fs, sx, ss, popped⟩ := popHead_eq k t u
  rw [popped, startUnit_eq, LaneUnit.joinReplay, loadReplayTimer_eq]
  by_cases stopped : u.replayTimer = .stopped
  · rw [if_pos stopped, if_pos stopped]
    cases k <;> rfl
  · rw [if_neg stopped, if_neg stopped]
    cases k <;> rfl

theorem firstTransmission_eq {s : State} {l : Lane} {k : TrafficClass} {t : Turn} {h : Handle}
    (head : (s.lane l).headOf k t = some h) : s.firstTransmission l k t =
      bump (.ofLane l .txParcels) (s.setLane l
        (((((s.lane l).popHead k t).joinReplay s.cfg h k).served k t).startUnit
          (.parcel (s.lane l).nextSeq) (s.parcelSymbols h (s.lane l).nextSeq))) := by
  rw [State.firstTransmission, head]
  simp only [State.modLane, bump_lane, setLane_bump]

/-- Settles O51: with no resend to start, by the class and the queue that the arbiter chooses. -/
theorem firstTransmissionOfChosenHead : Obligations.FirstTransmissionOfChosenHead := by
  intro s l
  dsimp only
  intro idle hold replay ack pointer
  have noResend : (s.lane l).resendChoice = none := by
    rcases pointer with noPointer | ⟨e, he, pointer, held, unique⟩
    · exact resendChoice_of_no_pointer noPointer
    · exact resendChoice_of_barred pointer (entry?_of_unique he unique) ((barred_iff _ _).2 held)
  have nothing (traffic : (s.lane l).state = .up ∨ (s.lane l).state = .stopping)
      (noFirst : (s.lane l).classChoice s.cfg = none) : exec (.startOpportunity l) s = .next s :=
    exec_startOpportunity_of_nothing ((carries_iff _).2 traffic) idle hold replay ack noResend noFirst
  rw [← mayStart_iff _ .express, ← mayStart_iff _ .standard]
  refine ⟨fun stopping => nothing (.inr stopping) (classChoice_of_not_up ?_),
    fun up full => nothing (.inl up) (classChoice_of_full (Nat.le_of_eq full.symm)),
    fun up express standard => nothing (.inl up) (classChoice_of_no_head express standard),
    fun k turn h q up room takes serves => ?_⟩
  · rw [stopping]
    decide
  have chosen : (s.lane l).classChoice s.cfg = some k := by
    cases k with
    | express => exact classChoice_of_express up room takes.1 takes.2
    | standard => exact classChoice_of_standard up room takes.1 takes.2
  rw [exec_startOpportunity_of_first ((carries_iff _).2 (.inl up)) idle hold replay ack noResend chosen]
  cases turn with
  | forward =>
    obtain ⟨head, turn⟩ := serves
    have headOf : (s.lane l).headOf k .forward = some h := by rw [LaneUnit.headOf, head]; rfl
    rw [queueChoice_forward head turn, firstTransmission_eq headOf, startHead_eq, popHead_forward head]
  | send =>
    obtain ⟨head, turn⟩ := serves
    have headOf : (s.lane l).headOf k .send = some h := by rw [LaneUnit.headOf, head]; rfl
    rw [queueChoice_send head turn, firstTransmission_eq headOf, startHead_eq, popHead_send head]

end Sys2Proof.Machine
end

section
/-! SUPPORT. Local delivery: the reads of an open parcel one after another, the order in which TAKE is
decided, and the fields of the head view (R136 to R140, R178). -/
namespace Sys2Proof.Machine

/-! ### A read of DDATA (R139, R140) -/

theorem exec_ddataRead_of_no_parcel {s : State} (hr : s.resetLow = false) (empty : s.slot = none) :
    exec .ddataRead s = .next { s.refusedAs .refusedState with busOut := 0 } := by
  rw [exec, execDdataRead, onRead_of_high hr, State.readDdata, State.ddataWord, State.refusedAs]
  dsimp only
  rw [empty]
  rfl

section
variable {s : State} {h : Handle} (hr : s.resetLow = false) (parcel : s.slot = some h)
include hr parcel

/-- The read window with its word and its move side by side, for an open parcel. -/
theorem exec_ddataRead_of_parcel : exec .ddataRead s = .next (
    if s.readPos + 2 ≤ (s.record h).length then { s with
      busOut := wordOf (s.payloadByte (s.record h) (s.readPos + 1)) (s.payloadByte (s.record h) s.readPos)
      readPos := s.readPos + 2 }
    else if s.readPos + 1 = (s.record h).length then { s with
      busOut := wordOf 0 (s.payloadByte (s.record h) s.readPos), readPos := (s.record h).length }
    else { s with busOut := 0, readPast := true }) := by
  rw [exec, execDdataRead, onRead_of_high hr, State.readDdata, State.ddataWord, parcel]
  dsimp only
  split
  · rfl
  · split <;> rfl

theorem exec_ddataRead_of_two_left (two : s.readPos + 2 ≤ (s.record h).length) :
    exec .ddataRead s = .next { s with
      busOut := wordOf (s.payloadByte (s.record h) (s.readPos + 1)) (s.payloadByte (s.record h) s.readPos)
      readPos := s.readPos + 2 } := by
  rw [exec_ddataRead_of_parcel hr parcel, if_pos two]

theorem exec_ddataRead_of_one_left (one : s.readPos + 1 = (s.record h).length) :
    exec .ddataRead s = .next { s with
      busOut := wordOf 0 (s.payloadByte (s.record h) s.readPos)
      readPos := (s.record h).length } := by
  rw [exec_ddataRead_of_parcel hr parcel, if_neg (by omega), if_pos one]

theorem exec_ddataRead_of_none_left (read : (s.record h).length ≤ s.readPos) :
    exec .ddataRead s = .next { s with busOut := 0, readPast := true } := by
  rw [exec_ddataRead_of_parcel hr parcel, if_neg (by omega), if_neg (by omega)]

end

/-! ### The reads of a parcel one after another (R139) -/

/-- The word on the bus after `k` reads of a parcel from its first byte on: before any read, what stood
there. -/
def State.wordAfterReads (s : State) (r : Record) (k : Nat) : Word :=
  if k = 0 then s.busOut
  else if 2 * k ≤ r.length then wordOf (s.payloadByte r (2 * k - 1)) (s.payloadByte r (2 * k - 2))
  else if 2 * k = r.length + 1 then wordOf 0 (s.payloadByte r (r.length - 1))
  else 0

/-- The state after `k` reads of an open parcel from its first byte on. -/
def State.afterReads (s : State) (r : Record) (k : Nat) : State :=
  { s with
    busOut := s.wordAfterReads r k, readPos := min (2 * k) r.length
    readPast := decide ((r.length + 1) / 2 < k) }

theorem afterReads_zero {s : State} (start : s.readPos = 0) (notPast : s.readPast = false)
    (r : Record) : s.afterReads r 0 = s := by
  rw [State.afterReads, State.wordAfterReads, if_pos rfl, Nat.mul_zero, Nat.zero_min,
    decide_eq_false (Nat.not_lt_zero _), ← start, ← notPast]

section
variable {s : State} {r : Record} {k : Nat}

theorem wordAfterReads_of_two_left (two : 2 * k + 2 ≤ r.length) :
    s.wordAfterReads r (k + 1) = wordOf (s.payloadByte r (2 * k + 1)) (s.payloadByte r (2 * k)) := by
  rw [State.wordAfterReads, if_neg k.succ_ne_zero, if_pos (by omega)]
  rfl

theorem wordAfterReads_of_one_left (one : 2 * k + 1 = r.length) :
    s.wordAfterReads r (k + 1) = wordOf 0 (s.payloadByte r (2 * k)) := by
  rw [State.wordAfterReads, if_neg k.succ_ne_zero, if_neg (by omega), if_pos (by omega), ← one]
  rfl

theorem wordAfterReads_of_none_left (read : r.length ≤ 2 * k) : s.wordAfterReads r (k + 1) = 0 := by
  rw [State.wordAfterReads, if_neg k.succ_ne_zero, if_neg (by omega), if_neg (by omega)]

/-- While a byte is left, a read leaves the read-past flag alone. -/
theorem readPast_succ_of_left (left : 2 * k < r.length) :
    decide ((r.length + 1) / 2 < k + 1) = decide ((r.length + 1) / 2 < k) :=
  decide_eq_decide.2 (by omega)

theorem afterReads_succ_of_two_left (two : 2 * k + 2 ≤ r.length) :
    s.afterReads r (k + 1) = { s.afterReads r k with
      busOut := wordOf (s.payloadByte r (2 * k + 1)) (s.payloadByte r (2 * k))
      readPos := 2 * k + 2 } := by
  have pos : min (2 * (k + 1)) r.length = 2 * k + 2 := Nat.min_eq_left two
  rw [State.afterReads, wordAfterReads_of_two_left two, pos, readPast_succ_of_left (by omega)]
  rfl

theorem afterReads_succ_of_one_left (one : 2 * k + 1 = r.length) :
    s.afterReads r (k + 1) = { s.afterReads r k with
      busOut := wordOf 0 (s.payloadByte r (2 * k)), readPos := r.length } := by
  have pos : min (2 * (k + 1)) r.length = r.length := Nat.min_eq_right (by omega)
  rw [State.afterReads, wordAfterReads_of_one_left one, pos, readPast_succ_of_left (by omega)]
  rfl

theorem afterReads_succ_of_none_left (read : r.length ≤ 2 * k) :
    s.afterReads r (k + 1) = { s.afterReads r k with busOut := 0, readPast := true } := by
  have pos : min (2 * (k + 1)) r.length = min (2 * k) r.length := by omega
  have past : (r.length + 1) / 2 < k + 1 := by omega
  rw [State.afterReads, wordAfterReads_of_none_left read, pos, decide_eq_true past]
  rfl

end

/-- One read more: two bytes, the last byte alone, or none are left of the parcel. -/
theorem exec_ddataRead_afterReads {s : State} {h : Handle} (hr : s.resetLow = false)
    (parcel : s.slot = some h) (k : Nat) :
    exec .ddataRead (s.afterReads (s.record h) k) = .next (s.afterReads (s.record h) (k + 1)) := by
  have high : (s.afterReads (s.record h) k).resetLow = false := hr
  have opened : (s.afterReads (s.record h) k).slot = some h := parcel
  rcases Nat.lt_trichotomy (2 * k + 1) (s.record h).length with two | one | past
  · have pos : (s.afterReads (s.record h) k).readPos = 2 * k := Nat.min_eq_left (by omega)
    rw [exec_ddataRead_of_two_left high opened (by rw [pos]; exact two), pos,
      afterReads_succ_of_two_left two]
    rfl
  · have pos : (s.afterReads (s.record h) k).readPos = 2 * k := Nat.min_eq_left (by omega)
    rw [exec_ddataRead_of_one_left high opened (by rw [pos]; exact one), pos,
      afterReads_succ_of_one_left one]
    rfl
  · have all : (s.record h).length ≤ 2 * k := by omega
    have pos : (s.afterReads (s.record h) k).readPos = (s.record h).length := Nat.min_eq_right all
    rw [exec_ddataRead_of_none_left high opened (Nat.le_of_eq pos.symm),
      afterReads_succ_of_none_left all]

/-- Reads alone move nothing but the read window on. -/
theorem run_ddataReads {s : State} {h : Handle} (hr : s.resetLow = false)
    (parcel : s.slot = some h) (m : Nat) : ∀ k,
    Host.Core.run Sys2Proof.core m
        ((s.afterReads (s.record h) k).queued (List.replicate m .ddataRead)) =
      .next ((s.afterReads (s.record h) (k + m)).queued []) := by
  induction m with
  | zero => exact fun _ => rfl
  | succ m ih =>
    intro k
    have read : exec .ddataRead
        ((s.afterReads (s.record h) k).queued (List.replicate m .ddataRead)) =
          .next ((s.afterReads (s.record h) (k + 1)).queued (List.replicate m .ddataRead)) :=
      exec_ddataRead_afterReads (s := s.queued (List.replicate m .ddataRead)) hr parcel k
    rw [List.replicate_succ, run_queued_cons _ _ _ _ _ read, ih, Nat.add_right_comm, Nat.add_assoc]

/-- Settles O17: each read by what is left of the parcel, and the reads one after another. -/
theorem parcelReadWholeInOrder : Obligations.ParcelReadWholeInOrder := by
  refine fun s hr => ⟨exec_ddataRead_of_no_parcel hr, fun h parcel =>
    ⟨exec_ddataRead_of_two_left hr parcel, exec_ddataRead_of_one_left hr parcel,
      fun atEnd => exec_ddataRead_of_none_left hr parcel (Nat.le_of_eq atEnd.symm)⟩,
    fun h k parcel start notPast => ?_⟩
  have reads := run_ddataReads hr parcel k 0
  rw [afterReads_zero start notPast, Nat.zero_add] at reads
  exact ⟨_, reads, rfl, rfl, rfl, rfl⟩

/-! ### TAKE (R136, R137) -/

theorem exec_take_of_error {s : State} {arg : Byte} {r : CmdResult} (hr : s.resetLow = false)
    (choice : s.takeChoice arg = .error r) : exec (.take arg) s = .next (s.refusedAs r) := by
  rw [exec, execTake, onWrite_of_high hr, State.cmdTake, choice]
  rfl

theorem exec_take_of_ok {s : State} {arg : Byte} {c : TrafficClass} (hr : s.resetLow = false)
    (choice : s.takeChoice arg = .ok c) : exec (.take arg) s = .next (taken (s.openHead c)) := by
  rw [exec, execTake, onWrite_of_high hr, State.cmdTake, choice]

theorem takeChoice_of_bad_arg {s : State} {arg : Byte} (bad : 2 < arg.toNat) :
    s.takeChoice arg = .error .refusedArg := if_pos bad

theorem takeChoice_of_parcel {s : State} {arg : Byte} (good : arg.toNat ≤ 2) (parcel : s.slot ≠ none) :
    s.takeChoice arg = .error .refusedBusy := by
  rw [State.takeChoice, if_neg (Nat.not_lt.2 good), if_pos (Option.isSome_iff_ne_none.2 parcel)]

section
variable {s : State} (empty : s.slot = none)
include empty

theorem takeChoice_express : s.takeChoice 0 =
    if s.dqX.isEmpty then .error .refusedEmpty else .ok .express := by
  rw [State.takeChoice, empty]
  rfl

theorem takeChoice_standard : s.takeChoice 1 =
    if s.dqS.isEmpty then .error .refusedEmpty else .ok .standard := by
  rw [State.takeChoice, empty]
  rfl

/-- ANY prefers express (R137). -/
theorem takeChoice_any : s.takeChoice 2 =
    if !s.dqX.isEmpty then .ok .express
    else if !s.dqS.isEmpty then .ok .standard
    else .error .refusedEmpty := by
  rw [State.takeChoice, empty]
  rfl

end

theorem openHead_express {s : State} {h : Handle} {q : List Handle} (head : s.dqX = h :: q) :
    taken (s.openHead .express) =
      { s with slot := some h, dqX := q, readPos := 0, readPast := false, cmdst := .taken } := by
  rw [State.openHead, head]
  rfl

theorem openHead_standard {s : State} {h : Handle} {q : List Handle} (head : s.dqS = h :: q) :
    taken (s.openHead .standard) =
      { s with slot := some h, dqS := q, readPos := 0, readPast := false, cmdst := .taken } := by
  rw [State.openHead, head]
  rfl

/-- Settles O15, by the conditions of R136 in their order and the queue each argument names. -/
theorem takeDecidedInOrder : Obligations.TakeDecidedInOrder := by
  refine fun s arg hr => ⟨fun bad => exec_take_of_error hr (takeChoice_of_bad_arg bad),
    fun good parcel => exec_take_of_error hr (takeChoice_of_parcel good parcel),
    fun empty noEntry => exec_take_of_error hr ?_, fun h q empty head names => ?_,
    fun h q empty head names => ?_⟩
  · rcases noEntry with ⟨rfl, noX⟩ | ⟨rfl, noS⟩ | ⟨rfl, noX, noS⟩
    · rw [takeChoice_express empty, noX]
      rfl
    · rw [takeChoice_standard empty, noS]
      rfl
    · rw [takeChoice_any empty, noX, noS]
      rfl
  · have choice : s.takeChoice arg = .ok .express := by
      rcases names with rfl | rfl
      · rw [takeChoice_express empty, head]
        rfl
      · rw [takeChoice_any empty, head]
        rfl
    rw [exec_take_of_ok hr choice, openHead_express head]
  · have choice : s.takeChoice arg = .ok .standard := by
      rcases names with rfl | ⟨rfl, noX⟩
      · rw [takeChoice_standard empty, head]
        rfl
      · rw [takeChoice_any empty, noX, head]
        rfl
    rw [exec_take_of_ok hr choice, openHead_standard head]

/-! ### Fields of a register (R178) -/

@[simp] theorem hiByte_wordOf (hi lo : Byte) : hiByte (wordOf hi lo) = hi :=
  BitVec.extractLsb'_append_eq_left

@[simp] theorem loByte_wordOf (hi lo : Byte) : loByte (wordOf hi lo) = lo :=
  BitVec.extractLsb'_append_eq_right

/-- A flag moved to bit `n` of a register stands there alone. -/
theorem getElem_flagWord_shiftLeft (b : Bool) (n : Nat) {i : Nat} (hi : i < 16) :
    (flagWord b <<< n)[i] = (decide (i = n) && b) := by
  have place : (!decide (i < n) && decide (i - n = 0)) = decide (i = n) := by
    rw [← decide_not, ← Bool.decide_and]
    exact decide_eq_decide.2 (by omega)
  simp [flagWord, ← place, Bool.and_assoc]

theorem getElem_ofNat_eq_testBit {w i : Nat} (n : Nat) (hi : i < w) :
    (BitVec.ofNat w n)[i] = n.testBit i := by
  rw [← BitVec.getLsbD_eq_getElem, BitVec.getLsbD_ofNat, decide_eq_true hi, Bool.true_and]

theorem testBit_handle_of_ge (h : Handle) {i : Nat} (hi : 7 ≤ i) : h.val.testBit i = false :=
  Nat.testBit_lt_two_pow (Nat.lt_of_lt_of_le h.isLt (Nat.pow_le_pow_right (n := 2) (by decide) hi))

theorem bit_eq_beq_express (c : TrafficClass) : c.bit = (c == .express) := by cases c <;> rfl

theorem arrivalBit_fromLane (l : Lane) : arrivalBit (some (.fromLane l)) = flagWord (l == .E) := by
  cases l <;> rfl

/-! ### The head view (R138, R178) -/

theorem headView_of_no_parcel {s : State} (empty : s.slot = none) (f : Handle → Word) :
    s.headView f = 0 := by rw [State.headView, empty]

theorem headView_of_parcel {s : State} {h : Handle} (parcel : s.slot = some h) (f : Handle → Word) :
    s.headView f = f h := by rw [State.headView, parcel]

section
variable {s : State} {h : Handle} {l : Lane} (arrival : (s.record h).arrival = some (.fromLane l))
include arrival

theorem dh0_fromLane : s.dh0 h = flagWord true <<< 15 ||| flagWord s.readPast <<< 14
      ||| flagWord ((s.record h).cls == .express) <<< 13 ||| flagWord (l == .E) <<< 12
      ||| (s.record h).hop.setWidth 16 <<< 8 ||| BitVec.ofNat 16 h.val := by
  rw [State.dh0, arrival, arrivalBit_fromLane, bit_eq_beq_express]
  rfl

/-- The bits of DH0 in the places of R178. -/
theorem getElem_dh0 {i : Nat} (hi : i < 16) :
    (s.dh0 h)[i] = (decide (i = 15) || (decide (i = 14) && s.readPast)
      || (decide (i = 13) && (s.record h).cls == .express) || (decide (i = 12) && l == .E)
      || (!decide (i < 8) && (s.record h).hop.getLsbD (i - 8)) || h.val.testBit i) := by
  simp only [dh0_fromLane arrival, BitVec.getElem_or, getElem_flagWord_shiftLeft,
    getElem_ofNat_eq_testBit]
  simp

/-- Below bit 12 no flag of DH0 stands. -/
theorem getElem_dh0_of_lt {i : Nat} (hi : i < 12) : (s.dh0 h)[i] =
    (!decide (i < 8) && (s.record h).hop.getLsbD (i - 8) || h.val.testBit i) := by
  simp [getElem_dh0 arrival, show i ≠ 15 by omega, show i ≠ 14 by omega, show i ≠ 13 by omega,
    show i ≠ 12 by omega]

theorem extractLsb'_dh0_hop : (s.dh0 h).extractLsb' 8 4 = (s.record h).hop := by
  ext i hi
  rw [BitVec.getElem_extractLsb', BitVec.getLsbD_eq_getElem (show 8 + i < 16 by omega),
    getElem_dh0_of_lt arrival (by omega), testBit_handle_of_ge h (by omega)]
  simp [hi]

theorem extractLsb'_dh0_handle : (s.dh0 h).extractLsb' 0 7 = BitVec.ofNat 7 h.val := by
  ext i hi
  rw [BitVec.getElem_extractLsb', Nat.zero_add, BitVec.getLsbD_eq_getElem (show i < 16 by omega),
    getElem_dh0_of_lt arrival (by omega), getElem_ofNat_eq_testBit]
  simp [show i < 8 by omega]

end

/-- Settles O16: each bit and each field of DH0 by its place, the other registers as they are made. -/
theorem headViewShowsOpenRecord : Obligations.HeadViewShowsOpenRecord := by
  refine fun s hr => ⟨fun empty r view => ?_, fun h l parcel arrival short => ?_⟩
  · rw [readRegister_of_high hr]
    simp only [List.mem_cons, List.not_mem_nil, or_false] at view
    rcases view with rfl | rfl | rfl | rfl <;> exact headView_of_no_parcel empty _
  · simp only [readRegister_of_high hr, State.shows, headView_of_parcel parcel, loByte_wordOf,
      hiByte_wordOf, extractLsb'_dh0_hop arrival, extractLsb'_dh0_handle arrival, BitVec.toNat_ofNat,
      Nat.mod_eq_of_lt h.isLt, Nat.mod_eq_of_lt (show (s.record h).length < 2 ^ 16 by omega)]
    simp [getElem_dh0 arrival, testBit_handle_of_ge]

end Sys2Proof.Machine
end

section
/-! SUPPORT. Local sending: how a compose opens, takes its bytes and ends (R147 to R154), and the places of
a report in its word (R156, R157, R179). -/
namespace Sys2Proof.Machine

/-! ### Opening and abandoning a compose (R147, R154) -/

section
variable {s : State} {arg : Byte} (hr : s.resetLow = false)
include hr

theorem exec_openSend : exec (.openSend arg) s = .next (s.cmdOpenSend arg) := by
  rw [exec, execOpenSend, onWrite_of_high hr]

theorem exec_abandon : exec (.abandon arg) s = .next (s.cmdAbandon arg) := by
  rw [exec, execAbandon, onWrite_of_high hr]

end

section
variable {s : State} (idle : s.composeOpen = false) (arg : Byte)
include idle

theorem cmdOpenSend_of_no_record (none : s.lowestFree = none) :
    s.cmdOpenSend arg = s.refusedAs .refusedNoRecord := by
  rw [State.cmdOpenSend, idle, none]
  rfl

theorem cmdOpenSend_of_lowest {h : Handle} (lowest : s.lowestFree = some h) :
    s.cmdOpenSend arg = { s with
      records := s.records.set h { Record.cleared with arrival := some .ofHost, compose := true }
      composeOpen := true, composeHandle := h, composeLen := 0, noCells := false
      tooLong := false, cmdst := .taken } := by
  rw [State.cmdOpenSend, idle, lowest]
  rfl

end

/-- A record composed by the host returns its cells to the free list and out of the local count (R26,
R28). -/
theorem freeRecord_of_ofHost {s : State} {h : Handle} (arrival : (s.record h).arrival = some .ofHost) :
    s.freeRecord h = { s with
      records := s.records.set h Record.cleared
      freeList := s.freeList ++ (s.record h).chain
      localCount := s.localCount - (s.record h).chain.length } := by
  unfold State.freeRecord
  dsimp only
  rw [arrival]
  rfl

/-- Settles O20, by the conditions of R147 and R154 in their order. -/
theorem composeOpensAndIsAbandoned : Obligations.ComposeOpensAndIsAbandoned := by
  intro s arg hr
  rw [exec_openSend hr, exec_abandon hr]
  refine ⟨fun busy => ?_, fun idle none => ?_, fun h idle free least => ?_, fun idle => ?_,
    fun busy arrival => ?_⟩
  · rw [State.cmdOpenSend, if_pos busy, refuse_eq_refusedAs]
  · rw [cmdOpenSend_of_no_record idle arg (lowestFree_eq_none none)]
  · rw [cmdOpenSend_of_lowest idle arg (lowestFree_eq_some free least)]
  · rw [State.cmdAbandon, idle, if_neg Bool.false_ne_true, refuse_eq_refusedAs]
  · rw [State.cmdAbandon, if_pos busy, freeRecord_of_ofHost arrival]
    rfl

/-! ### The write window (R148 to R150) -/

/-- The state with a cell more at the end of a record's chain (R148). -/
def State.grown (s : State) (h : Handle) (c : CellNo) : State :=
  s.setRecord h { s.record h with chain := (s.record h).chain ++ [c] }

/-- Two bytes written at an even offset stand next to each other in one cell, and no other byte of the
cells changes (R148). -/
theorem storePair_mem {s : State} (canonical : s.mem.wf = true) (even : s.composeLen % 2 = 0)
    (c : CellNo) (v : Word) :
    (s.storePair c v).mem.wf = true ∧ ∀ a, (s.storePair c v).mem.read a =
      if a = 64 * c.val + s.composeLen % 64 then loByte v
      else if a = 64 * c.val + s.composeLen % 64 + 1 then hiByte v
      else s.mem.read a := by
  have first : (s.writeCell c s.composeLen (loByte v)).mem.wf = true := Memory.wf_write _ _ canonical
  have next : cellAddr c (s.composeLen + 1) = 64 * c.val + s.composeLen % 64 + 1 := by
    rw [cellAddr]
    omega
  refine ⟨Memory.wf_write _ _ first, fun a => ?_⟩
  have read : (s.storePair c v).mem.read a =
      if a = 64 * c.val + s.composeLen % 64 + 1 then hiByte v
      else if a = 64 * c.val + s.composeLen % 64 then loByte v
      else s.mem.read a := by
    rw [← next, ← cellAddr, ← State.writeCell_read canonical]
    exact State.writeCell_read first c (s.composeLen + 1) (hiByte v) a
  rw [read]
  by_cases low : a = 64 * c.val + s.composeLen % 64
  · rw [if_pos low, if_pos low, if_neg (by omega)]
  · rw [if_neg low, if_neg low]

/-- A cell granted to the host comes off the free list into the local count, and may raise POOL_LOW;
nothing else changes (R29). -/
theorem requestCell_ofHost_eq {s t : State} {k : TrafficClass} {c : CellNo}
    (granted : s.requestCell .ofHost k = some (c, t)) :
    ∃ free events count, t = { s with freeList := free, evPend := events, localCount := count } := by
  unfold State.requestCell at granted
  split at granted
  · split at granted
    · cases granted
    · dsimp only at granted
      split at granted <;> cases granted <;> exact ⟨_, _, _, rfl⟩
  · cases granted

theorem newComposeCell_of_refused {s : State} (v : Word)
    (refused : s.requestCell .ofHost (sctlClass s.sctl) = none) :
    s.newComposeCell v = { s with noCells := true } := by
  rw [State.newComposeCell, refused]

theorem newComposeCell_of_granted {s t : State} {c : CellNo} (v : Word)
    (granted : s.requestCell .ofHost (sctlClass s.sctl) = some (c, t)) :
    s.newComposeCell v = (t.grown t.composeHandle c).storePair c v := by
  rw [State.newComposeCell, granted]
  rfl

section
variable {s : State} {v : Word} (hr : s.resetLow = false)
include hr

theorem exec_sdataWrite : exec (.sdataWrite v) s = .next (s.writeSdata v) := by
  rw [exec, execSdataWrite, onWrite_of_high hr]

variable (composing : s.composeOpen = true)
include composing

theorem exec_sdataWrite_of_error (error : s.noCells = true ∨ s.tooLong = true) :
    exec (.sdataWrite v) s = .next s := by
  rw [exec_sdataWrite hr, State.writeSdata, composing, if_neg (by decide), if_pos (by simpa using error)]

variable (cells : s.noCells = false) (fits : s.tooLong = false)
include cells fits

theorem exec_sdataWrite_of_full (full : s.composeLen = 512) :
    exec (.sdataWrite v) s = .next { s with tooLong := true } := by
  rw [exec_sdataWrite hr, State.writeSdata, composing, cells, fits, if_neg (by decide),
    if_neg (by decide), if_pos (by omega)]

variable (short : s.composeLen < 512)
include short

theorem exec_sdataWrite_of_boundary (boundary : s.composeLen % 64 = 0) :
    exec (.sdataWrite v) s = .next (s.newComposeCell v) := by
  rw [exec_sdataWrite hr, State.writeSdata, composing, cells, fits, if_neg (by decide),
    if_neg (by decide), if_neg (by omega), if_pos boundary]

theorem exec_sdataWrite_of_inside (inside : s.composeLen % 64 ≠ 0) {c : CellNo}
    (last : (s.record s.composeHandle).chain.getLast? = some c) :
    exec (.sdataWrite v) s = .next (s.storePair c v) := by
  rw [exec_sdataWrite hr, State.writeSdata, composing, cells, fits, if_neg (by decide),
    if_neg (by decide), if_neg (by omega), if_neg inside, last]

end

/-- Settles O21, by the conditions of R148 to R150 in their order. -/
theorem sdataStoresTwoBytes : Obligations.SdataStoresTwoBytes := by
  refine fun s v hr => ⟨fun idle => ?_, fun composing error => exec_sdataWrite_of_error hr composing error,
    fun composing cells fits even canonical => ⟨fun full =>
      exec_sdataWrite_of_full hr composing cells fits full, fun short boundary refused => ?_,
      fun c t short boundary granted => ?_, fun c short inside last => ?_⟩⟩
  · rw [exec_sdataWrite hr, State.writeSdata, idle, if_pos (by decide), refuse_eq_refusedAs]
  · rw [exec_sdataWrite_of_boundary hr composing cells fits short boundary,
      newComposeCell_of_refused v refused]
  · have stores : exec (.sdataWrite v) s = .next ((t.grown t.composeHandle c).storePair c v) := by
      rw [exec_sdataWrite_of_boundary hr composing cells fits short boundary,
        newComposeCell_of_granted v granted]
    obtain ⟨free, events, count, rfl⟩ := requestCell_ofHost_eq granted
    exact ⟨_, stores, storePair_mem canonical even c v, rfl⟩
  · exact ⟨_, exec_sdataWrite_of_inside hr composing cells fits short inside last,
      storePair_mem canonical even c v, rfl⟩

/-! ### POST (R152, R153) -/

theorem posts_eq_false_iff (x : LaneState) : x.posts = false ↔ x = .off ∨ x = .stopping := by
  cases x <;> decide

/-- The destination of a POST is 0 or this station, or no lane is selected (R152). -/
def State.BadPost (s : State) : Prop :=
  s.sdest = 0 ∨ s.sdest.toNat = s.cfg.station.toNat
    ∨ (sctlLane s.sctl .W = false ∧ sctlLane s.sctl .E = false)

/-- A lane is selected for a POST that is OFF or STOPPING (R152). -/
def State.ShutPost (s : State) : Prop :=
  ∃ l, sctlLane s.sctl l = true ∧ ((s.lane l).state = .off ∨ (s.lane l).state = .stopping)

theorem shutPost_iff (s : State) : s.ShutPost ↔
    (sctlLane s.sctl .W = true ∧ (s.laneW.state = .off ∨ s.laneW.state = .stopping))
      ∨ (sctlLane s.sctl .E = true ∧ (s.laneE.state = .off ∨ s.laneE.state = .stopping)) :=
  ⟨fun
    | ⟨.W, shut⟩ => .inl shut
    | ⟨.E, shut⟩ => .inr shut,
    fun shut => shut.elim (⟨.W, ·⟩) (⟨.E, ·⟩)⟩

theorem shutPost_iff_not_posts (s : State) : s.ShutPost ↔
    ((sctlLane s.sctl .W && !s.laneW.state.posts)
      || (sctlLane s.sctl .E && !s.laneE.state.posts)) = true := by
  simp [shutPost_iff, posts_eq_false_iff]

theorem postRefusal_of_idle {s : State} (idle : s.composeOpen = false) :
    s.postRefusal = some .refusedState := by
  rw [State.postRefusal, idle]
  rfl

section
variable {s : State} (composing : s.composeOpen = true)
include composing

theorem postRefusal_of_error (error : s.noCells = true ∨ s.tooLong = true) :
    s.postRefusal = some .refusedCompose := by
  rw [State.postRefusal, composing, if_neg (by decide), if_pos (by simpa using error)]

variable (clean : ¬(s.noCells = true ∨ s.tooLong = true))
include clean

theorem postRefusal_of_badPost (bad : s.BadPost) : s.postRefusal = some .refusedArg := by
  rw [State.postRefusal, composing, if_neg (by decide), if_neg (by simpa using clean)]
  exact if_pos bad

variable (good : ¬s.BadPost)
include good

theorem postRefusal_of_shutPost (shut : s.ShutPost) : s.postRefusal = some .refusedState := by
  rw [State.postRefusal, composing, if_neg (by decide), if_neg (by simpa using clean)]
  exact (if_neg good).trans (if_pos ((shutPost_iff_not_posts s).1 shut))

theorem postRefusal_eq_none (admitted : ¬s.ShutPost) : s.postRefusal = none := by
  rw [State.postRefusal, composing, if_neg (by decide), if_neg (by simpa using clean)]
  exact (if_neg good).trans (if_neg (mt (shutPost_iff_not_posts s).2 admitted))

end

theorem exec_post {s : State} (hr : s.resetLow = false) (arg : Byte) :
    exec (.post arg) s = .next (s.cmdPost arg) := by
  rw [exec, execPost, onWrite_of_high hr]

theorem cmdPost_of_refusal {s : State} {r : CmdResult} (refused : s.postRefusal = some r) (arg : Byte) :
    s.cmdPost arg = s.refusedAs r := by
  rw [State.cmdPost, refused, ← refuse_eq_refusedAs]

/-- A parcel joins the send queue of its class. -/
theorem setSend_append (express : Bool) (h : Handle) (u : LaneUnit) :
    u.setSend (classOfBit express) (u.send (classOfBit express) ++ [h]) =
      if express then { u with sendX := u.sendX ++ [h] } else { u with sendS := u.sendS ++ [h] } := by
  cases express <;> rfl

theorem joinSend_eq (s : State) (l : Lane) (express : Bool) (h : Handle) :
    s.joinSend l (classOfBit express) h = s.setLane l (if sctlLane s.sctl l then
      if express then { s.lane l with sendX := (s.lane l).sendX ++ [h] }
      else { s.lane l with sendS := (s.lane l).sendS ++ [h] }
    else s.lane l) := by
  rw [State.joinSend, State.modLane, setSend_append]
  split
  · rfl
  · exact (State.setLane_self s l).symm

theorem postLength_eq (n : Nat) (odd : Bool) :
    postLength n odd = if odd = true ∧ 0 < n then n - 1 else n := by
  simp [postLength]

/-- Settles O22, by the conditions of R152 in their order and the steps of R153. -/
theorem postCheckedInOrderAndQueued : Obligations.PostCheckedInOrderAndQueued := by
  intro s arg hr
  dsimp only
  rw [exec_post hr]
  refine ⟨fun idle => ?_, fun composing error => ?_, fun composing clean bad => ?_,
    fun composing clean good shut => ?_, fun composing clean good admitted => ?_⟩
  · rw [cmdPost_of_refusal (postRefusal_of_idle idle)]
  · rw [cmdPost_of_refusal (postRefusal_of_error composing error)]
  · rw [cmdPost_of_refusal (postRefusal_of_badPost composing clean bad)]
  · rw [cmdPost_of_refusal (postRefusal_of_shutPost composing clean good ((shutPost_iff s).2 shut))]
  · rw [State.cmdPost, postRefusal_eq_none composing clean good (mt (shutPost_iff s).1 admitted)]
    dsimp only
    rw [sctlClass, joinSend_eq, joinSend_eq, State.postedRecord, postLength_eq]
    rfl

/-! ### Reports (R156, R157, R179) -/

theorem laneBit_eq_flagWord (l : Lane) : laneBit l = flagWord (l == .E) := by cases l <;> rfl

theorem reportWord_eq (r : Report) : r.word = flagWord true <<< 15 ||| r.status.code <<< 13
    ||| flagWord (r.lane == .E) <<< 12 ||| (BitVec.ofNat 4 r.resends).setWidth 16 <<< 8
    ||| BitVec.ofNat 16 r.handle.val := by
  rw [Report.word, laneBit_eq_flagWord]
  rfl

/-- The bits of a report word in the places of R179. -/
theorem getElem_reportWord (r : Report) {i : Nat} (hi : i < 16) :
    r.word[i] = (decide (i = 15) || (!decide (i < 13) && r.status.code.getLsbD (i - 13))
      || (decide (i = 12) && r.lane == .E)
      || (!decide (i < 8) && (BitVec.ofNat 4 r.resends).getLsbD (i - 8)) || r.handle.val.testBit i) := by
  simp only [reportWord_eq, BitVec.getElem_or, getElem_flagWord_shiftLeft, getElem_ofNat_eq_testBit]
  simp [BitVec.getLsbD_eq_getElem (show i - 13 < 16 by omega)]

theorem extractLsb'_reportWord_handle (r : Report) :
    r.word.extractLsb' 0 7 = BitVec.ofNat 7 r.handle.val := by
  ext i hi
  rw [BitVec.getElem_extractLsb', Nat.zero_add, BitVec.getLsbD_eq_getElem (show i < 16 by omega),
    getElem_reportWord, getElem_ofNat_eq_testBit]
  simp [show i ≠ 15 by omega, show i < 13 by omega, show i ≠ 12 by omega, show i < 8 by omega]

theorem extractLsb'_reportWord_resends (r : Report) :
    r.word.extractLsb' 8 4 = BitVec.ofNat 4 r.resends := by
  ext i hi
  rw [BitVec.getElem_extractLsb', BitVec.getLsbD_eq_getElem (show 8 + i < 16 by omega),
    getElem_reportWord, testBit_handle_of_ge r.handle (by omega)]
  simp [show 8 + i ≠ 15 by omega, show 8 + i < 13 by omega, show 8 + i ≠ 12 by omega, hi]

theorem extractLsb'_reportWord_status (r : Report) :
    r.word.extractLsb' 13 2 = r.status.code.setWidth 2 := by
  ext i hi
  rw [BitVec.getElem_extractLsb', BitVec.getLsbD_eq_getElem (show 13 + i < 16 by omega),
    getElem_reportWord, testBit_handle_of_ge r.handle (by omega)]
  simp [show 13 + i ≠ 15 by omega, show 13 + i ≠ 12 by omega,
    show (BitVec.ofNat 4 r.resends).getLsbD (13 + i - 8) = false from BitVec.getLsbD_of_ge _ _ (by omega)]

theorem exec_rptqRead {s : State} (hr : s.resetLow = false) : exec .rptqRead s = .next s.readRptq := by
  rw [exec, execRptqRead, onRead_of_high hr]

theorem readRptq_of_empty {s : State} (empty : s.reports = []) : s.readRptq = { s with busOut := 0 } := by
  rw [State.readRptq, State.rptqWord, empty]
  rfl

theorem readRptq_of_report {s : State} {r : Report} {rs : List Report} (queue : s.reports = r :: rs) :
    s.readRptq = { s with busOut := r.word, reports := rs } := by
  rw [State.readRptq, State.rptqWord, queue]
  rfl

/-- Settles O23: the queue by its length, the report word by the places of its fields. -/
theorem reportsQueueAndAreRead : Obligations.ReportsQueueAndAreRead := by
  intro s hr
  rw [exec_rptqRead hr]
  refine ⟨fun r => ⟨fun room => if_pos room, fun full => if_neg (Nat.not_lt.2 full)⟩, fun few => ?_,
    fun empty => by rw [readRptq_of_empty empty], fun r rs queue few =>
      ⟨_, by rw [readRptq_of_report queue], rfl, ?valid, ?status, ?lane, ?resends, ?zero, ?handle⟩⟩
  · rw [readRegister_of_high hr, State.shows, BitVec.toNat_ofNat, Nat.mod_eq_of_lt (by omega)]
  case valid => simp [getElem_reportWord]
  case status =>
    rw [extractLsb'_reportWord_status]
    cases r.status <;> rfl
  case lane => simp [getElem_reportWord, testBit_handle_of_ge]
  case resends =>
    rw [extractLsb'_reportWord_resends, BitVec.toNat_ofNat, Nat.mod_eq_of_lt (by omega)]
  case zero => simp [getElem_reportWord, testBit_handle_of_ge]
  case handle =>
    rw [extractLsb'_reportWord_handle, BitVec.toNat_ofNat, Nat.mod_eq_of_lt r.handle.isLt]

end Sys2Proof.Machine
end

section
/-! SUPPORT. Events and counters: checked writes that are refused or taken, the pending and the enable set
as sets of causes, and the selected counter (R160 to R168, R174). -/
namespace Sys2Proof.Machine

/-! ### Checked writes (R174) -/

theorem writeChecked_of_out_of_range {s : State} {r : RegName} {v : Word}
    (outOfRange : r.inRange v = false) : s.writeChecked r v = s.refusedAs .refusedArg := by
  rw [State.writeChecked, State.writeRefusal, outOfRange]
  rfl

theorem writeChecked_of_fits {s : State} {r : RegName} {v : Word} (range : r.inRange v = true)
    (lock : s.lockMet r = true) (own : s.ownCondition r v = none) :
    s.writeChecked r v = taken (s.setRegister r v) := by
  have noRefusal : s.writeRefusal r v = none := by
    rw [State.writeRefusal, range, lock]
    exact own
  rw [State.writeChecked, noRefusal]

theorem inRange_zero_iff (hi n : Nat) : inRange 0 hi n = true ↔ n ≤ hi := by simp [inRange]

/-! ### Causes and their bits (R160) -/

theorem causes_map_bit : causes.map Cause.bit = List.range 13 := by decide

theorem Cause.bit_lt (c : Cause) : c.bit < 13 := by
  rcases c with _ | _ | _ | _ | l | l | l | _ | _ | _ <;> (try cases l) <;> decide

theorem exists_cause_of_lt {i : Nat} (hi : i < 13) : ∃ c : Cause, c.bit = i := by
  have listed : i ∈ causes.map Cause.bit := causes_map_bit ▸ List.mem_range.2 hi
  obtain ⟨c, -, bit⟩ := List.mem_map.1 listed
  exact ⟨c, bit⟩

/-- A set of causes is empty when no cause stands in it. -/
theorem ne_zero_iff_exists_cause (m : BitVec 13) : m ≠ 0 ↔ ∃ c : Cause, m.getLsbD c.bit = true := by
  constructor
  · intro nonempty
    refine Classical.byContradiction fun none => nonempty (BitVec.eq_of_getLsbD_eq fun i hi => ?_)
    obtain ⟨c, rfl⟩ := exists_cause_of_lt hi
    simpa using fun pending => none ⟨c, pending⟩
  · rintro ⟨c, pending⟩ rfl
    simp at pending

theorem intLow_iff (s : State) :
    intLow s = true ↔ ∃ c : Cause, s.isPending c = true ∧ s.isEnabled c = true := by
  simp only [intLow, bne_iff_ne, ne_zero_iff_exists_cause, BitVec.getLsbD_and, Bool.and_eq_true,
    State.isPending, State.isEnabled]

/-! ### EVPEND and EVEN (R162, R164) -/

/-- The register that shows a set of causes: each cause at its bit. -/
theorem getLsbD_setWidth_bit (m : BitVec 13) (c : Cause) :
    (m.setWidth 16).getLsbD c.bit = m.getLsbD c.bit := by
  have := c.bit_lt
  simp [show c.bit < 16 by omega]

/-- Above the thirteen causes the register shows 0. -/
theorem extractLsb'_setWidth_causes (m : BitVec 13) : (m.setWidth 16).extractLsb' 13 3 = 0 := by
  ext i hi
  simp

/-- The set of causes a written word names. -/
theorem getLsbD_setWidth_causes (v : Word) (c : Cause) :
    (v.setWidth 13).getLsbD c.bit = v.getLsbD c.bit := by
  simp [c.bit_lt]

theorem isPending_clearEvents (s : State) (v : Word) (c : Cause) :
    (s.clearEvents v).isPending c = (s.isPending c && !v.getLsbD c.bit) := by
  rw [State.isPending, State.clearEvents, BitVec.getLsbD_and, BitVec.getLsbD_not,
    getLsbD_setWidth_causes, decide_eq_true c.bit_lt, Bool.true_and]
  rfl

/-- Check 1 of a write of EVEN: bits 15:13 are clear (R164). -/
theorem inRange_even_iff (v : Word) : RegName.even.inRange v = true ↔ v.extractLsb' 13 3 = 0 := by
  have top : (v.extractLsb' 13 3).toNat = v.toNat / 8192 % 8 := by
    rw [BitVec.extractLsb'_toNat, Nat.shiftRight_eq_div_pow]
  rw [RegName.inRange, inRange_zero_iff, ← BitVec.toNat_inj, top]
  change v.toNat ≤ 8191 ↔ v.toNat / 8192 % 8 = 0
  omega

section
variable {s : State} (hr : s.resetLow = false) (v : Word)
include hr

theorem exec_evpendWrite : exec (.evpendWrite v) s = .next (s.clearEvents v) := by
  rw [exec, execEvpendWrite, onWrite_of_high hr]

theorem exec_evenWrite : exec (.evenWrite v) s = .next (s.writeChecked .even v) := by
  rw [exec, execEvenWrite, onWrite_of_high hr]

theorem exec_evenWrite_of_bad (bad : v.extractLsb' 13 3 ≠ 0) :
    exec (.evenWrite v) s = .next (s.refusedAs .refusedArg) := by
  rw [exec_evenWrite hr, writeChecked_of_out_of_range (Bool.eq_false_iff.2 (mt (inRange_even_iff v).1 bad))]

theorem exec_evenWrite_of_clear (clear : v.extractLsb' 13 3 = 0) : exec (.evenWrite v) s =
    .next { s with evEnable := v.setWidth 13, cmdst := .taken } := by
  rw [exec_evenWrite hr, writeChecked_of_fits ((inRange_even_iff v).2 clear) rfl rfl]
  rfl

end

/-- Settles O12: INT# by `intLow_iff` in the state before and after each write. -/
theorem eventRegistersReadAndWritten : Obligations.EventRegistersReadAndWritten := by
  refine ⟨causes_map_bit, fun s c x => ⟨isPending_raise c x s, rfl⟩, fun s v hr => ?_⟩
  rw [readRegister_of_high hr, readRegister_of_high hr]
  refine ⟨fun c => getLsbD_setWidth_bit s.evPend c, extractLsb'_setWidth_causes s.evPend,
    ⟨_, exec_evpendWrite hr v, isPending_clearEvents s v, ?cleared, rfl⟩,
    fun c => getLsbD_setWidth_bit s.evEnable c, extractLsb'_setWidth_causes s.evEnable, intLow_iff s,
    exec_evenWrite_of_bad hr v,
    fun clear => ⟨_, exec_evenWrite_of_clear hr v clear, getLsbD_setWidth_causes v, ?enabled, rfl⟩⟩
  case cleared =>
    have sameEnable (c : Cause) : (s.clearEvents v).isEnabled c = s.isEnabled c := rfl
    simp only [intLow_iff, isPending_clearEvents, sameEnable, Bool.and_eq_true, Bool.not_eq_true',
      and_assoc]
  case enabled =>
    simp only [intLow_iff, State.isPending, State.isEnabled, getLsbD_setWidth_causes]

/-! ### CSEL and CVAL (R168) -/

theorem inRange_csel_iff (v : Word) : RegName.csel.inRange v = true ↔ v.toNat ≤ 47 :=
  inRange_zero_iff 47 v.toNat

theorem getElem_set_of_ne {α : Type} {n : Nat} (xs : Vector α n) {i k : Fin n} (other : k ≠ i) (x : α) :
    (xs.set i x)[k] = xs[k] :=
  Vector.getElem_set_ne i.isLt k.isLt fun same => other (Fin.ext same.symm)

theorem counters_readCval_selected (s : State) : s.readCval.counters[s.csel] = 0 := by
  simp [State.readCval]

theorem counters_readCval_of_ne (s : State) {k : Fin 48} (other : k ≠ s.csel) :
    s.readCval.counters[k] = s.counters[k] :=
  getElem_set_of_ne s.counters other 0

section
variable {s : State} (hr : s.resetLow = false)
include hr

theorem exec_cvalRead : exec .cvalRead s = .next s.readCval := by
  rw [exec, execCvalRead, onRead_of_high hr]

theorem exec_cselWrite (v : Word) : exec (.cselWrite v) s = .next (s.writeChecked .csel v) := by
  rw [exec, execCselWrite, onWrite_of_high hr]

theorem exec_cselWrite_of_bad {v : Word} (bad : 47 < v.toNat) :
    exec (.cselWrite v) s = .next (s.refusedAs .refusedArg) := by
  rw [exec_cselWrite hr, writeChecked_of_out_of_range
    (Bool.eq_false_iff.2 (mt (inRange_csel_iff v).1 (Nat.not_le.2 bad)))]

theorem exec_cselWrite_of_index {v : Word} (index : v.toNat ≤ 47) : exec (.cselWrite v) s =
    .next { s with csel := Fin.ofNat 48 v.toNat, cmdst := .taken } := by
  rw [exec_cselWrite hr, writeChecked_of_fits ((inRange_csel_iff v).2 index) rfl rfl]
  rfl

/-- CVAL is read only: a write of it is ignored (R171). -/
theorem exec_registerWrite_cval (v : Word) : exec (.registerWrite 0x6A v) s = .next s := by
  rw [exec, execRegisterWrite, onWrite_of_high hr]
  rfl

theorem toNat_readRegister_csel : (s.readRegister .csel).toNat = s.csel.val := by
  rw [readRegister_of_high hr, State.shows, BitVec.toNat_ofNat]
  omega

end

/-! ### Increments (R167) -/

theorem bump_of_saturated {c : Counter} {s : State} (full : s.counter c = 65535) : bump c s = s :=
  if_pos full

theorem counters_bump_of_ne {c : Counter} (s : State) {k : Fin 48} (other : k ≠ c.index) :
    (bump c s).counters[k] = s.counters[k] := by
  rw [bump_eq]
  exact getElem_set_of_ne s.counters other _

/-- An increment raises COUNT_HALF when it reaches 32768, and no other cause. -/
theorem isPending_bump_eq (c : Counter) (x : Cause) (s : State) : (bump c s).isPending x =
    (s.isPending x || (x == .countHalf && s.counter c == 32767)) := by
  rw [bump_eq, State.isPending]
  by_cases half : s.counter c = 32767
  · rw [if_pos half, BitVec.getLsbD_or, Cause.mask_getLsbD, half, beq_self_eq_true, Bool.and_true]
    rfl
  · rw [if_neg half, beq_eq_false_iff_ne.2 half, Bool.and_false, Bool.or_false]
    rfl

/-- Settles O13: the selected counter by the reads and writes of its registers, an increment by `bump_eq`. -/
theorem countersReadClearedAndSaturating : Obligations.CountersReadClearedAndSaturating := by
  refine ⟨by decide, fun _ _ => rfl, fun s => ⟨fun v hr => ?registers, fun c => ?increment⟩⟩
  case registers =>
    refine ⟨exec_cselWrite_of_bad hr, fun index => ⟨_, exec_cselWrite_of_index hr index, ?_, rfl⟩,
      toNat_readRegister_csel hr, readRegister_of_high hr .cval, exec_registerWrite_cval hr v,
      _, exec_cvalRead hr, rfl, counters_readCval_selected s, fun _ => counters_readCval_of_ne s, rfl⟩
    exact Nat.mod_eq_of_lt (Nat.lt_succ_of_le index)
  case increment =>
    refine ⟨bump_of_saturated, fun room => ⟨?_, fun _ => counters_bump_of_ne s,
      fun x => isPending_bump_eq c x s, ?_⟩⟩
    · rw [bump_counter, if_neg room]
    · rw [bump_eq]

end Sys2Proof.Machine
end

section
/-! SUPPORT. The register window: what a write by offset reaches, the settings that both lanes lock, the codes
of CMD, and the registers after a reset (R171 to R175). -/
namespace Sys2Proof.Machine

/-! ### Writes by offset (R171, R174) -/

/-- A write by offset reaches the register at that offset while RESET# is high (R171). -/
theorem exec_registerWrite {s : State} (hr : s.resetLow = false) (o : Byte) (v : Word) :
    exec (.registerWrite o v) s = .next (s.writeReg (RegName.ofOffset o) v) := by
  rw [exec, execRegisterWrite, onWrite_of_high hr]

/-- A value in range is refused while the lock of its register is not met: check 2 follows check 1 (R174). -/
theorem writeChecked_of_locked {s : State} {r : RegName} {v : Word} (range : r.inRange v = true)
    (locked : s.lockMet r = false) : s.writeChecked r v = s.refusedAs .refusedState := by
  rw [State.writeChecked, State.writeRefusal, range, locked]
  rfl

theorem inRange_iff (lo hi n : Nat) : inRange lo hi n = true ↔ lo ≤ n ∧ n ≤ hi := by simp [inRange]

/-! ### The settings both lanes lock (R174, R175) -/

/-- What R174 and R175 say of a register that is checked, writable only while both lanes are OFF, and has
no condition of its own. -/
structure RegName.SharedSetting (r : RegName) (lo hi : Nat) : Prop where
  notResult : r ≠ .cmdst
  checked (s : State) (v : Word) : s.writeReg r v = s.writeChecked r v
  range (v : Word) : r.inRange v = true ↔ Within lo hi v
  lock (s : State) : s.lockMet r = true ↔ s.laneW.state = .off ∧ s.laneE.state = .off
  own (s : State) (v : Word) : s.ownCondition r v = none
  stored (s : State) (v : Word) : ∃ c, s.setRegister r v = { s with cfg := c }
  shown (s : State) (v : Word) : (s.setRegister r v).shows r = v
  others (s : State) (v : Word) {q : RegName} (other : q ≠ r) :
    (s.setRegister r v).shows q = s.shows q

theorem sharedSetting_of_mem {e : Byte × Nat × Nat} (listed : e ∈ sharedSettings) :
    (RegName.ofOffset e.1).SharedSetting e.2.1 e.2.2 := by
  simp only [sharedSettings, List.mem_cons, List.not_mem_nil, or_false] at listed
  rcases listed with rfl | rfl | rfl | rfl | rfl | rfl | rfl | rfl <;> exact {
    notResult := RegName.noConfusion
    checked _ _ := rfl
    range v := inRange_iff _ _ v.toNat
    lock s := (Bool.and_eq_true _ _).to_iff.trans (and_congr beq_iff_eq beq_iff_eq)
    own _ _ := rfl
    stored _ _ := ⟨_, rfl⟩
    shown _ _ := rfl
    others s v q other := by
      cases q <;> first
        | rfl
        | exact absurd rfl other }

/-- CMDST alone shows the result of a write. -/
theorem shows_taken_of_ne {r : RegName} (other : r ≠ .cmdst) (s : State) : (taken s).shows r = s.shows r := by
  cases r <;> first
    | rfl
    | exact absurd rfl other

theorem shows_taken (r : RegName) (s : State) :
    (taken s).shows r = if r = .cmdst then 1 else s.shows r := by
  split
  case isTrue result => rw [result]; rfl
  case isFalse other => exact shows_taken_of_ne other s

/-- Settles O9: the checks of R174 in order, by what each says of a shared setting. -/
theorem sharedSettingsLockedByBothLanes : Obligations.SharedSettingsLockedByBothLanes := by
  intro e listed s v hr
  have shared := sharedSetting_of_mem listed
  rw [exec_registerWrite hr, shared.checked]
  refine ⟨fun out => ?range, fun inside on => ?locked, fun inside offW offE => ?taken⟩
  case range =>
    rw [writeChecked_of_out_of_range (Bool.eq_false_iff.2 (mt (shared.range v).1 out))]
  case locked =>
    rw [writeChecked_of_locked ((shared.range v).2 inside) (Bool.eq_false_iff.2 (mt (shared.lock s).1 on))]
  case taken =>
    obtain ⟨c, stored⟩ := shared.stored s v
    have high : (taken (s.setRegister (RegName.ofOffset e.1) v)).resetLow = false := by
      rw [stored]
      exact hr
    refine ⟨_, by rw [writeChecked_of_fits ((shared.range v).2 inside) ((shared.lock s).2 ⟨offW, offE⟩)
      (shared.own s v)], ?_, fun r other notResult => ?_, ?_⟩
    · rw [readRegister_of_high high, shows_taken_of_ne shared.notResult, shared.shown]
    · rw [readRegister_of_high high, readRegister_of_high hr, shows_taken_of_ne notResult,
        shared.others s v other]
    · rw [stored]
      rfl

/-! ### The codes of CMD and the rows of their own (R171 to R173) -/

theorem exec_registerWrite_cmd {s : State} (hr : s.resetLow = false) (code arg : Byte) :
    exec (.registerWrite 0x00 (wordOf arg code)) s = .next (s.writeCmd code arg) := by
  rw [exec_registerWrite hr]
  change Host.Outcome.next (s.writeCmd (loByte (wordOf arg code)) (hiByte (wordOf arg code))) = _
  rw [loByte_wordOf, hiByte_wordOf]

/-- A code that is not in the list of R173 names no command. -/
theorem writeCmd_of_unknown {code : Byte} (unknown : code ∉ commandCodes) (s : State) (arg : Byte) :
    s.writeCmd code arg = s.refusedAs .unknown := by
  have unnamed {n : Nat} (named : code.toNat = n) (known : BitVec.ofNat 8 n ∈ commandCodes) : False := by
    rw [← named, BitVec.ofNat_toNat, BitVec.setWidth_eq] at known
    exact unknown known
  unfold State.writeCmd
  split
  case h_11 => exact refuse_eq_refusedAs _ s
  all_goals exact (unnamed ‹_› (by decide)).elim

/-- The registers whose writes are ignored (R171). -/
def RegName.ignoresWrites : RegName → Bool
  | .cmdst | .lstat _ | .nbr | .free | .intake _ | .localc | .dqlen | .dh0 | .dh1 | .dh2 | .dh3
  | .ddata | .shnd | .slen | .rptq | .rptn | .cval | .rlist | .unassigned => true
  | _ => false

theorem writeReg_of_ignoresWrites {r : RegName} (ignores : r.ignoresWrites = true) (s : State) (v : Word) :
    s.writeReg r v = s := by
  cases r <;> first
    | rfl
    | exact Bool.noConfusion ignores

theorem ignoresWrites_of_mem : ∀ o ∈ ignoredOffsets, (RegName.ofOffset o).ignoresWrites = true := by
  decide

theorem readRegister_cmdst {s : State} (hr : s.resetLow = false) : s.readRegister .cmdst = s.cmdst.code :=
  readRegister_of_high hr .cmdst

/-- Settles O8: the command of a code by `exec_registerWrite_cmd`, the command of an offset by
`exec_registerWrite`. -/
theorem windowWritesActByOffsetAndCode : Obligations.WindowWritesActByOffsetAndCode := by
  intro s arg v hr
  have write (o : Byte) := exec_registerWrite hr o v
  have known {code : Byte} {f : State → State} (named : s.writeCmd code arg = f s) :
      exec (.registerWrite 0x00 (wordOf arg code)) s = .next (s.onWrite f) := by
    rw [exec_registerWrite_cmd hr, named, onWrite_of_high hr]
  have result (r : CmdResult) : ({ s with cmdst := r }.readRegister .cmdst) = r.code :=
    readRegister_cmdst (s := { s with cmdst := r }) hr
  refine ⟨known rfl, known rfl, known rfl, known rfl, known rfl, known rfl, known rfl, known rfl, known rfl,
    known rfl, fun code unknown => ⟨?byCode, ?unknown⟩, ?codes, fun o listed => ?ignored, rfl, rfl, rfl, rfl,
    rfl, readRegister_of_high hr _, readRegister_of_high hr _, readRegister_of_high hr _, write 0x56, write 0x5A,
    ?sdest, readRegister_of_high hr _⟩
  case byCode => rw [exec_registerWrite_cmd hr, writeCmd_of_unknown unknown]
  case unknown => rw [exec, execUnknownCommand, onWrite_of_high hr, writeCmd_of_unknown unknown]
  case codes =>
    simp only [result]
    decide
  case ignored => rw [write, writeReg_of_ignoresWrites (ignoresWrites_of_mem o listed)]
  case sdest =>
    rw [readRegister_of_high hr, State.shows, BitVec.toNat_setWidth]
    omega

/-! ### The register map after a reset (R173, R175) -/

/-- The registers that SOFT RESET keeps (R175), but for RTENT. -/
def RegName.keptBySoftReset : RegName → Bool
  | .station | .groups | .lcfg _ | .cap _ | .hstd _ | .hall _ | .hrel _ | .htime | .hrenew | .ackdly
  | .rtmo | .rlim | .buplim | .stoptmo | .xratio | .xres | .lallow | .palarm | .ddepth | .fdepth
  | .even => true
  | _ => false

theorem softReset_shows_of_kept {r : RegName} (kept : r.keptBySoftReset = true) (s : State) :
    s.softReset.shows r = s.shows r := by
  cases r <;> first
    | exact Bool.noConfusion kept
    | rfl

/-- Every other register but RTENT shows its reset value, CMDST that the command was taken (R173, R175). -/
theorem softReset_shows_of_not_kept {r : RegName} (cleared : r.keptBySoftReset = false) (plain : r ≠ .rtent)
    (s : State) : s.softReset.shows r = (taken State.reset).shows r := by
  cases r <;> first
    | exact Bool.noConfusion cleared
    | exact absurd rfl plain
    | rfl

/-- The column of R175 for pin reset. -/
theorem reset_shows_of_mem : ∀ e ∈ registerMapResets, State.reset.shows (RegName.ofOffset e.1) = e.2.1 :=
  List.map_inj_left.1 (by decide +kernel)

/-- The column of R175 for SOFT RESET: no value for a register that is kept, and for any other but CMDST
the value of pin reset. -/
theorem softReset_column : ∀ e ∈ registerMapResets, e.2.2 =
    if (RegName.ofOffset e.1).keptBySoftReset then none
    else some (if RegName.ofOffset e.1 = .cmdst then 1 else e.2.1) :=
  List.map_inj_left.1 (by decide +kernel)

theorem ne_rtent_of_mem {e : Byte × Word × Option Word} (listed : e ∈ registerMapResets) :
    RegName.ofOffset e.1 ≠ .rtent := by
  have absent : RegName.rtent ∉ registerMapResets.map (RegName.ofOffset ·.1) := by decide +kernel
  exact fun same => absent (same ▸ List.mem_map_of_mem listed)

/-- The model's own queue and count of free values show in no register. -/
theorem shows_of_queue (s : State) (cs : List Instr) (n : Nat) (r : RegName) :
    { s with pending := cs, draws := n }.shows r = s.shows r := by
  cases r <;> rfl

theorem shows_pinReset (s : State) (r : RegName) : s.pinReset.shows r = State.reset.shows r :=
  shows_of_queue State.reset s.pending s.draws r

/-- Settles O3: the two columns of the table, register by register. -/
theorem resetsGiveRegisterMapValues : Obligations.ResetsGiveRegisterMapValues := by
  refine fun s => ⟨⟨s.pinReset, rfl, fun e listed => ?pin, fun i => Vector.getElem_replicate _⟩,
    fun arg hr => ⟨s.softReset, ?runs, fun e listed => ?soft, rfl⟩⟩
  case pin =>
    rw [readRegister_of_high rfl, shows_pinReset, reset_shows_of_mem e listed]
  case runs => exact congrArg Host.Outcome.next (onWrite_of_high hr _)
  case soft =>
    rw [readRegister_of_high rfl, readRegister_of_high hr]
    rw [softReset_column e listed]
    cases kept : (RegName.ofOffset e.1).keptBySoftReset with
    | true => exact softReset_shows_of_kept kept s
    | false =>
      rw [softReset_shows_of_not_kept kept (ne_rtent_of_mem listed), shows_taken,
        reset_shows_of_mem e listed]
      rfl

end Sys2Proof.Machine
end

section
/-! SUPPORT. RESET# held low: what each kind of command finds on a part held in reset, and that no command
and no tick pulls the pin low (R171, R180). -/
namespace Sys2Proof.Machine

/-! ### A lane at its reset values -/

/-- A lane at its reset values is OFF and no timer of it runs: no timed matter has an effect on it. -/
theorem happen_of_reset {s : State} {l : Lane} (unit : s.lane l = LaneUnit.reset) (k : TimedKind) :
    s.happen l k = s := by
  cases k
  case unitEnd => rw [State.happen, State.endUnit, unit]; rfl
  case opportunity => rw [State.happen, State.opportunity, unit]; rfl
  case lossOfSignal => rw [State.happen, State.signalLoss, unit]; rfl
  case graceEnd => rw [State.happen, State.endGrace, unit]; rfl
  case greetInterval => rw [State.happen, State.expireGreetInterval, unit]; rfl
  case bringUp => rw [State.happen, State.expireBringUp, unit]; rfl
  case stop => rw [State.happen, State.expireStop, unit]; rfl
  case ackDelay => rw [State.happen, State.expireAckDelay, unit]; rfl
  case replay =>
    have same : LaneUnit.reset.expireReplay s.cfg = s.lane l := unit.symm
    rw [State.happen, State.expireReplayTimer, State.modLane, unit, same, State.setLane_self]
  case renew =>
    have same : LaneUnit.reset.expireRenew s.cfg = s.lane l := unit.symm
    rw [State.happen, State.expireRenewTimer, State.modLane, unit, same, State.setLane_self]
  case partnerEnd => rw [State.happen, State.expirePartner, unit]; rfl

/-- Nothing is due on a lane at its reset values. -/
theorem isDue_of_reset {s : State} {l : Lane} (unit : s.lane l = LaneUnit.reset) (k : TimedKind) :
    s.isDue l k = false := by
  cases k <;> rw [State.isDue, unit] <;> rfl

theorem age_reset : LaneUnit.reset.age = LaneUnit.reset := rfl

/-- With both lanes at their reset values time changes nothing. -/
theorem tick_of_reset {s : State} (unit : ∀ l, s.lane l = LaneUnit.reset) : tick s = s := by
  have aged : s.aged = s := by
    have same (t : State) (l : Lane) (h : t.lane l = LaneUnit.reset) : t.modLane l LaneUnit.age = t := by
      rw [State.modLane, h, age_reset, ← h, State.setLane_self]
    rw [State.aged, same s .W (unit .W), same s .E (unit .E)]
  rw [tick_eq, aged, dueNow_of_none fun l => isDue_of_reset (unit l)]
  rfl

/-! ### What a command of the lanes is -/

theorem Kept.happen {P : State → Prop} {C : Survives P} {s : State} (h : Kept C s) (l : Lane)
    (k : TimedKind) : Kept C (s.happen l k) := by
  cases k
  case unitEnd => exact h.endUnit l
  case opportunity => exact h.opportunity l
  case lossOfSignal => exact h.signalLoss l
  case graceEnd => exact h.endGrace l
  case greetInterval => exact h.expireGreetInterval l
  case bringUp => exact h.expireBringUp l
  case stop => exact h.expireStop l
  case ackDelay => exact h.expireAckDelay l
  case replay => exact h.expireReplayTimer l
  case renew => exact h.expireRenewTimer l
  case partnerEnd => exact h.expirePartner l

/-- A command of the lanes is a timed matter of a lane, or something its receiver takes as a symbol, which
keeps every property that survives the updates of the lanes. -/
theorem exec_laneCommand_cases {c : Instr} (lane : isLaneCommand c = true) :
    (∃ l k, c = TimedKind.command l k)
    ∨ ∃ (l : Lane) (f : State → State), (∀ s, exec c s = .next (s.onSymbol l f))
      ∧ ∀ {P : State → Prop} {C : Survives P} {s : State}, Kept C s → Kept C (f s) := by
  cases c
  all_goals try exact Bool.noConfusion lane
  case lossOfSignal l => exact .inl ⟨l, .lossOfSignal, rfl⟩
  case startGraceEnd l => exact .inl ⟨l, .graceEnd, rfl⟩
  case greetIntervalExpiry l => exact .inl ⟨l, .greetInterval, rfl⟩
  case bringUpTimerExpiry l => exact .inl ⟨l, .bringUp, rfl⟩
  case stopTimerExpiry l => exact .inl ⟨l, .stop, rfl⟩
  case ackDelayExpiry l => exact .inl ⟨l, .ackDelay, rfl⟩
  case replayTimerExpiry l => exact .inl ⟨l, .replay, rfl⟩
  case renewTimerExpiry l => exact .inl ⟨l, .renew, rfl⟩
  case partnerHoldExpiry l => exact .inl ⟨l, .partnerEnd, rfl⟩
  case startOpportunity l => exact .inl ⟨l, .opportunity, rfl⟩
  case unitEnd l => exact .inl ⟨l, .unitEnd, rfl⟩
  case sopReceived l => exact .inr ⟨l, _, fun _ => rfl, fun h => h.takeSop l⟩
  case sowReceived l => exact .inr ⟨l, _, fun _ => rfl, fun h => h.takeSow l⟩
  case idlReceived l => exact .inr ⟨l, _, fun _ => rfl, fun h => h.takeIdl l⟩
  case dataByteReceived l b => exact .inr ⟨l, _, fun _ => rfl, fun h => h.takeData l b⟩
  case eopReceived l => exact .inr ⟨l, _, fun _ => rfl, fun h => h.takeEop l⟩
  case abtReceived l => exact .inr ⟨l, _, fun _ => rfl, fun h => h.takeAbt l⟩
  case ackReceived l q => exact .inr ⟨l, _, fun _ => rfl, fun h => (h.closeForWord l).takeWord l _⟩
  case replayReceived l q => exact .inr ⟨l, _, fun _ => rfl, fun h => (h.closeForWord l).takeWord l _⟩
  case holdReceived l sc t => exact .inr ⟨l, _, fun _ => rfl, fun h => (h.closeForWord l).takeWord l _⟩
  case symbolAtOtherRate l => exact .inr ⟨l, _, fun _ => rfl, id⟩
  case greetReceived l g =>
    by_cases valid : 1 ≤ g.station.toNat ∧ g.station.toNat ≤ 239
    · have passes := (inRange_iff 1 239 g.station.toNat).2 valid
      exact .inr ⟨l, _, fun _ => if_pos passes, fun h => (h.closeForWord l).takeWord l _⟩
    · have fails := mt (inRange_iff 1 239 g.station.toNat).1 valid
      exact .inr ⟨l, _, fun _ => if_neg fails, fun h => (h.closeForWord l).bump _⟩

/-- No command of the lanes has an effect on lanes at their reset values. -/
theorem exec_laneCommand_of_reset {s : State} (unit : ∀ l, s.lane l = LaneUnit.reset) {c : Instr}
    (lane : isLaneCommand c = true) : exec c s = .next s := by
  obtain ⟨l, k, rfl⟩ | ⟨l, f, symbol, -⟩ := exec_laneCommand_cases lane
  · rw [exec_command, happen_of_reset (unit l)]
  · have off : (s.lane l).state = .off := by rw [unit]; rfl
    rw [symbol, onSymbol_off s l f off]

/-- A command of the lanes keeps every property that survives their updates. -/
theorem Kept.laneCommand {P : State → Prop} {C : Survives P} {s : State} (h : Kept C s) {c : Instr}
    (lane : isLaneCommand c = true) : ∃ t, exec c s = .next t ∧ Kept C t := by
  obtain ⟨l, k, rfl⟩ | ⟨l, f, symbol, keeps⟩ := exec_laneCommand_cases lane
  · exact ⟨_, exec_command l k s, h.happen l k⟩
  · exact ⟨_, symbol s, h.onSymbol l keeps⟩

/-! ### RESET# and the commands of the host (R171) -/

theorem onWrite_of_low {s : State} (low : s.resetLow = true) (f : State → State) : s.onWrite f = s :=
  if_pos low

theorem onRead_of_low {s : State} (low : s.resetLow = true) (f : State → State) :
    s.onRead f = { s with busOut := 0 } := if_pos low

theorem readRegister_of_low {s : State} (low : s.resetLow = true) (r : RegName) : s.readRegister r = 0 :=
  if_pos low

/-- No update of the lanes moves RESET#. -/
theorem survives_resetLow (b : Bool) : Survives fun t => t.resetLow = b where
  setLane t l u h := (State.setLane_resetLow t l u).trans h
  raise _ _ h := h
  bump t c h := (bump_resetLow c t).trans h
  setRecord _ _ _ h := h
  writeCell _ _ _ _ h := h
  setDq t c q h := (State.setDq_resetLow t c q).trans h
  freeCells _ _ h := h
  countLocal _ _ h := h
  queue _ _ h := h

theorem kept_resetLow (s : State) : Kept (survives_resetLow s.resetLow) s := rfl

theorem teardown_resetLow (s : State) (l : Lane) (g : Target) : (s.teardown l g).resetLow = s.resetLow :=
  (kept_resetLow s).teardown l g

theorem enterStopping_resetLow (s : State) (l : Lane) : (s.enterStopping l).resetLow = s.resetLow :=
  (((kept_resetLow s).modLane l _).raise (.lane l)).drainCheck l

theorem freeRecord_resetLow (s : State) (h : Handle) : (s.freeRecord h).resetLow = s.resetLow :=
  (kept_resetLow s).freeRecord h

theorem dropRef_resetLow (s : State) (h : Handle) : (s.dropRef h).resetLow = s.resetLow :=
  (kept_resetLow s).dropRef h

theorem requestCell_resetLow {s t : State} {a : Arrival} {k : TrafficClass} {c : CellNo}
    (granted : s.requestCell a k = some (c, t)) : t.resetLow = s.resetLow :=
  (kept_resetLow s).requestCell granted

theorem cmdLaneEnable_resetLow (s : State) (arg : Byte) : (s.cmdLaneEnable arg).resetLow = s.resetLow := by
  unfold State.cmdLaneEnable
  split
  · rfl
  · split
    · rfl
    · split
      · rfl
      · rw [taken_resetLow, raise_resetLow, State.modLane_resetLow]

theorem cmdLaneStop_resetLow (s : State) (arg : Byte) : (s.cmdLaneStop arg).resetLow = s.resetLow := by
  unfold State.cmdLaneStop
  split
  · rfl
  · split
    · rfl
    · rw [taken_resetLow, teardown_resetLow]
    · rw [taken_resetLow, teardown_resetLow]
    · rw [taken_resetLow, enterStopping_resetLow]
    · rfl

theorem cmdLaneAbort_resetLow (s : State) (arg : Byte) : (s.cmdLaneAbort arg).resetLow = s.resetLow := by
  unfold State.cmdLaneAbort
  split
  · rfl
  · split
    · rfl
    · rw [taken_resetLow, teardown_resetLow]

theorem cmdTake_resetLow (s : State) (arg : Byte) : (s.cmdTake arg).resetLow = s.resetLow := by
  unfold State.cmdTake
  split
  · rfl
  · rename_i k _
    cases k <;> rfl

theorem cmdRelease_resetLow (s : State) (arg : Byte) : (s.cmdRelease arg).resetLow = s.resetLow := by
  unfold State.cmdRelease
  split
  · rfl
  · rw [taken_resetLow, dropRef_resetLow]

theorem cmdOpenSend_resetLow (s : State) (arg : Byte) : (s.cmdOpenSend arg).resetLow = s.resetLow := by
  unfold State.cmdOpenSend
  split
  · rfl
  · split <;> rfl

theorem cmdPost_resetLow (s : State) (arg : Byte) : (s.cmdPost arg).resetLow = s.resetLow := by
  rw [State.cmdPost]
  split
  · rfl
  · have join (t : State) (l : Lane) (k : TrafficClass) (h : Handle) :
        (t.joinSend l k h).resetLow = t.resetLow := by
      unfold State.joinSend
      split
      · exact State.modLane_resetLow t l _
      · rfl
    exact (join _ .E _ _).trans (join _ .W _ _)

theorem cmdAbandon_resetLow (s : State) (arg : Byte) : (s.cmdAbandon arg).resetLow = s.resetLow := by
  unfold State.cmdAbandon
  split
  · exact freeRecord_resetLow s _
  · rfl

theorem writeSdata_resetLow (s : State) (v : Word) : (s.writeSdata v).resetLow = s.resetLow := by
  unfold State.writeSdata
  split
  · rfl
  · split
    · rfl
    · split
      · rfl
      · split
        · unfold State.newComposeCell
          split
          · rfl
          · rename_i granted
            refine Eq.trans ?_ (requestCell_resetLow granted)
            rfl
        · split <;> rfl

theorem writeChecked_resetLow (s : State) (r : RegName) (v : Word) :
    (s.writeChecked r v).resetLow = s.resetLow := by
  unfold State.writeChecked
  split
  · rfl
  · cases r <;> rfl

theorem readDdata_resetLow (s : State) : s.readDdata.resetLow = s.resetLow := by
  unfold State.readDdata
  dsimp only
  split
  · rfl
  · split
    · rfl
    · split <;> rfl

/-! ### No command pulls RESET# low (R180; log 16) -/

/-- No write of CMD takes RESET# low: SOFT RESET leaves it high, every other command where it is. -/
theorem writeCmd_high {s : State} (high : s.resetLow = false) (code arg : Byte) :
    (s.writeCmd code arg).resetLow = false := by
  unfold State.writeCmd
  split
  · rw [cmdLaneEnable_resetLow, high]
  · rw [cmdLaneStop_resetLow, high]
  · rw [cmdLaneAbort_resetLow, high]
  · rw [cmdTake_resetLow, high]
  · rw [cmdRelease_resetLow, high]
  · rw [cmdOpenSend_resetLow, high]
  · rw [cmdPost_resetLow, high]
  · rw [cmdAbandon_resetLow, high]
  · exact high
  · rfl
  · exact high

theorem writeReg_high {s : State} (high : s.resetLow = false) (r : RegName) (v : Word) :
    (s.writeReg r v).resetLow = false := by
  cases r
  case cmd => exact writeCmd_high high _ _
  case sdata => exact (writeSdata_resetLow s v).trans high
  all_goals first
    | exact high
    | exact (writeChecked_resetLow s _ v).trans high

/-- A command of the host other than PIN_RESET is a write of the window, or a read with a side effect, that
does not take RESET# low. -/
theorem exec_hostCommand_cases {c : Instr} (host : isLaneCommand c = false) (noRelease : c ≠ .pinReset) :
    ∃ f : State → State, (∀ t : State, t.resetLow = false → (f t).resetLow = false)
      ∧ ((∀ s, exec c s = .next (s.onWrite f))
        ∨ (c ∈ [Instr.ddataRead, .rptqRead, .cvalRead] ∧ ∀ s, exec c s = .next (s.onRead f))) := by
  cases c
  all_goals try exact Bool.noConfusion host
  case pinReset => exact absurd rfl noRelease
  case laneEnable arg =>
    exact ⟨_, fun t high => (cmdLaneEnable_resetLow t arg).trans high, .inl fun _ => rfl⟩
  case laneStop arg => exact ⟨_, fun t high => (cmdLaneStop_resetLow t arg).trans high, .inl fun _ => rfl⟩
  case laneAbort arg => exact ⟨_, fun t high => (cmdLaneAbort_resetLow t arg).trans high, .inl fun _ => rfl⟩
  case take arg => exact ⟨_, fun t high => (cmdTake_resetLow t arg).trans high, .inl fun _ => rfl⟩
  case release arg => exact ⟨_, fun t high => (cmdRelease_resetLow t arg).trans high, .inl fun _ => rfl⟩
  case openSend arg => exact ⟨_, fun t high => (cmdOpenSend_resetLow t arg).trans high, .inl fun _ => rfl⟩
  case post arg => exact ⟨_, fun t high => (cmdPost_resetLow t arg).trans high, .inl fun _ => rfl⟩
  case abandon arg => exact ⟨_, fun t high => (cmdAbandon_resetLow t arg).trans high, .inl fun _ => rfl⟩
  case routeClear arg => exact ⟨(·.cmdRouteClear arg), fun _ high => high, .inl fun _ => rfl⟩
  case softReset arg => exact ⟨(·.cmdSoftReset arg), fun _ _ => rfl, .inl fun _ => rfl⟩
  case unknownCommand code arg => exact ⟨_, fun _ high => writeCmd_high high code arg, .inl fun _ => rfl⟩
  case registerWrite o v =>
    exact ⟨_, fun _ high => writeReg_high high (RegName.ofOffset o) v, .inl fun _ => rfl⟩
  case sdataWrite v => exact ⟨_, fun _ high => writeReg_high high .sdata v, .inl fun _ => rfl⟩
  case cselWrite v => exact ⟨_, fun _ high => writeReg_high high .csel v, .inl fun _ => rfl⟩
  case evpendWrite v => exact ⟨_, fun _ high => writeReg_high high .evpend v, .inl fun _ => rfl⟩
  case evenWrite v => exact ⟨_, fun _ high => writeReg_high high .even v, .inl fun _ => rfl⟩
  case rtentWrite v => exact ⟨_, fun _ high => writeReg_high high .rtent v, .inl fun _ => rfl⟩
  case ddataRead =>
    exact ⟨_, fun t high => (readDdata_resetLow t).trans high, .inr ⟨by simp, fun _ => rfl⟩⟩
  case rptqRead => exact ⟨State.readRptq, fun _ high => high, .inr ⟨by simp, fun _ => rfl⟩⟩
  case cvalRead => exact ⟨State.readCval, fun _ high => high, .inr ⟨by simp, fun _ => rfl⟩⟩

theorem exec_high {s : State} (high : s.resetLow = false) (c : Instr) :
    ∃ t, exec c s = .next t ∧ t.resetLow = false := by
  cases lane : isLaneCommand c with
  | true => exact Kept.laneCommand (C := survives_resetLow false) high lane
  | false =>
    by_cases release : c = .pinReset
    · exact ⟨s.pinReset, by rw [release]; rfl, rfl⟩
    · obtain ⟨f, keeps, write | ⟨-, read⟩⟩ := exec_hostCommand_cases lane release
      · exact ⟨f s, by rw [write, onWrite_of_high high], keeps s high⟩
      · exact ⟨f s, by rw [read, onRead_of_high high], keeps s high⟩

theorem tick_resetLow (s : State) : (tick s).resetLow = s.resetLow := by
  have drawn : Kept (survives_resetLow s.resetLow)
      { s.aged with draws := s.draws + s.aged.dueNow.length } :=
    ((kept_resetLow s).modLane .W LaneUnit.age).modLane .E LaneUnit.age
  rw [tick_eq]
  refine Kept.foldl (fun t x kept => ?_) _ drawn
  exact Kept.ite (kept.happen x.1 x.2) kept

theorem step_high {s t : State} (high : s.resetLow = false) (stepped : step s = .next t) :
    t.resetLow = false := by
  unfold step at stepped
  split at stepped
  case h_1 c rest _ =>
    obtain ⟨u, executed, highAfter⟩ := exec_high (s := { s with pending := rest }) high c
    rw [executed] at stepped
    cases stepped
    exact highAfter
  case h_2 =>
    cases stepped
    rw [tick_resetLow, high]

/-! ### A part held in reset (R171, R180) -/

section
variable {s : State} (held : s.HeldInReset)
include held

theorem resetLow_of_held : s.resetLow = true := congrArg State.resetLow held

theorem lane_of_held (l : Lane) : s.lane l = LaneUnit.reset := by
  cases l
  · exact congrArg State.laneW held
  · exact congrArg State.laneE held

theorem intLow_of_held : intLow s = false := by
  have pending : s.evPend = 0 := congrArg State.evPend held
  simp [intLow, pending]

/-- A read that answers 0 leaves on the bus what stood there. -/
theorem busOut_of_held : { s with busOut := 0 } = s := by
  have bus : s.busOut = 0 := congrArg State.busOut held
  rw [← bus]

theorem exec_of_held {c : Instr} (noRelease : c ≠ .pinReset) : exec c s = .next s := by
  have low := resetLow_of_held held
  cases lane : isLaneCommand c with
  | true => exact exec_laneCommand_of_reset (lane_of_held held) lane
  | false =>
    obtain ⟨f, -, write | ⟨-, read⟩⟩ := exec_hostCommand_cases lane noRelease
    · rw [write, onWrite_of_low low]
    · rw [read, onRead_of_low low, busOut_of_held held]

theorem tick_of_held : tick s = s := tick_of_reset (lane_of_held held)

/-- The queue is the model's own: a part is held in reset whatever stands there (log 16). -/
theorem held_of_queue (rest : List Instr) : { s with pending := rest }.HeldInReset := by
  unfold State.HeldInReset at held ⊢
  rw [held]

/-- A step of a part held in reset releases it or keeps it. -/
theorem step_of_held {t : State} (stepped : step s = .next t) (low : t.resetLow = true) :
    t.HeldInReset := by
  unfold step at stepped
  split at stepped
  case h_1 c rest _ =>
    by_cases release : c = .pinReset
    · rw [release] at stepped
      cases stepped
      exact Bool.noConfusion low
    · rw [exec_of_held (held_of_queue held rest) release] at stepped
      cases stepped
      exact held_of_queue held rest
  case h_2 =>
    rw [tick_of_held held] at stepped
    cases stepped
    exact held

end

/-- Settles O5: a part held in reset by its lanes at their reset values and RESET# low, the last clause by
`step_of_held` and, since no step pulls the pin low, `step_high`. -/
theorem windowAnswersZeroWhileResetLow : Obligations.WindowAnswersZeroWhileResetLow := by
  refine ⟨fun s => ⟨rfl, s.pinReset, rfl, rfl, rfl, rfl⟩, fun s held => ?held, fun s low => ?low,
    fun s t sound stepped lowAfter => ?step⟩
  case held =>
    refine ⟨intLow_of_held held, fun l => ?_, fun c => exec_of_held held, tick_of_held held⟩
    rw [lane_of_held held]
    exact ⟨rfl, rfl⟩
  case low =>
    refine ⟨readRegister_of_low low, fun o v => congrArg Host.Outcome.next (onWrite_of_low low _),
      fun c listed => ?_⟩
    simp only [List.mem_cons, List.not_mem_nil, or_false] at listed
    rcases listed with rfl | rfl | rfl <;> exact congrArg Host.Outcome.next (onRead_of_low low _)
  case step =>
    cases low : s.resetLow with
    | true => exact step_of_held (sound low) stepped lowAfter
    | false => exact absurd (step_high low stepped) (by rw [lowAfter]; exact Bool.noConfusion)

end Sys2Proof.Machine
end

section
/-! SUPPORT. The two branches of a step: a command from the queue, or a tick (log 1). -/

namespace Sys2Proof.Machine

theorem step_of_command {s : State} {c : Instr} {rest : List Instr} (front : s.pending = c :: rest) :
    step s = exec c { s with pending := rest } := by
  rw [step, front]

/-- Settles O1: the front command by `step_of_command`, where taking it from `c :: s.pending` gives `s`
back, and the empty queue by `step_of_idle`. -/
theorem stepTakesFrontCommandOrTime : Obligations.StepTakesFrontCommandOrTime :=
  ⟨fun _ _ => step_of_command rfl, fun _ idle => step_of_idle idle⟩

end Sys2Proof.Machine
end
